-- ==== Sys2Proof/Word.lean ====
section
/-! DEFINITION. The word types of the block (00_scope.md R7, 10_state.md R44): no value is wider than 16 bits. -/

namespace Sys2Proof

/-- A byte: 8 bits (R44). -/
abbrev Byte := BitVec 8

/-- A Word: "one 16-bit addressable unit of EEPROM storage in ×16 organization mode" (R12, R44). -/
abbrev Word := BitVec 16

/-- The two bytes of a read, in buffer order: `b0` is the first byte clocked in (10_state.md R25, R32). -/
structure BytePair where
  b0 : Byte
  b1 : Byte
  deriving DecidableEq, Repr, Inhabited

end Sys2Proof
end

