-- ==== Sys2Proof/Config.lean ====
section
/-! DEFINITION. What a session fixes (00_scope.md R6, R7; 10_state.md R17 to R20), the transport's Status type
(60_exceptions.md R136), and the model's open constants: values no rule fixes, with no body, so that no proof can see
them. -/

namespace Sys2Proof

/-- How many failure kinds the transport's Status enumeration has beyond the four that R136 names. OPEN (R136, D18):
an uninterpreted constant. DESIGN CHOICE, safe (log 6). -/
opaque Config.otherStatusKinds : Nat

/-- The transport's result type (R136): a finite enumeration with a distinguished SUCCESS and at least the four
failure kinds the source names. No rule depends on an encoding. -/
inductive Status where
  | success
  | deviceNotFound
  | ioTimeout
  | invalidHandle
  | invalidParameter
  /-- any further failure kind of the platform's enumeration -/
  | other (kind : Fin Config.otherStatusKinds)
  deriving DecidableEq, Repr, Inhabited

/-- One record of the transport response port (10_state.md R21): the status and, for a read request, `n_xfer` and the
bytes it lists, first clocked in first. A write request's answer uses the status alone. Where a record lists fewer
bytes than a read requested, the rest of the buffer is what the data line gives (`State.received`, log 3). -/
structure TxAnswer where
  status : Status
  nXfer  : Nat
  rx     : List Byte
  deriving DecidableEq, Repr, Inhabited

/-- The transport's answer to a request is "a free input of the block's step", "constrained by no law of this spec"
(R27): a FREE VALUE, drawn by the counter `State.draws`. DESIGN CHOICE of its form, safe (log 3). -/
opaque Config.txAnswer : Nat → TxAnswer

/-- What stands in byte `k` of the read buffer of draw `d` where neither the answer nor a device gives it: LMS "does not
say what the buffer holds", so "A model draws the bytes" (40_codec.md R98, N8): a FREE VALUE. DESIGN CHOICE of its
form, safe (log 3). -/
opaque Config.rxByte : Nat → Nat → Byte

/-- The device's write-cycle time (70_reset_and_hazards.md R163), of which "LMS ... gives no figure": an open constant,
in the unit of `T_SETTLE`. DESIGN CHOICE of its form, safe (log 22). -/
opaque Config.writeCycleTime : Nat

/-- `T_SETTLE` (R18): "LMS gives no value, so it is an OPEN parameter". DESIGN CHOICE of its form, safe (log 5). -/
opaque Config.settleInterval : Nat

/-- The three legal device profiles, named by their address width (R6, R17). -/
inductive Profile where
  | p6
  | p7
  | p8
  deriving DecidableEq, Repr, Inhabited

/-- `A`, the address width (R6). -/
def Profile.addrBits : Profile → Nat
  | .p6 => 6
  | .p7 => 7
  | .p8 => 8

/-- `C = A + 3`, the command width (R6). -/
def Profile.cmdBits (p : Profile) : Nat := p.addrBits + 3

/-- A DeviceProfile as the host states it, before it is checked (R6). -/
structure DeviceProfile where
  addressBits : Nat
  commandBits : Nat
  deriving DecidableEq, Repr

/-- What the block does with a host address of `2^A` or more (R19). -/
inductive AddrPolicy where
  | refuse
  | truncate
  deriving DecidableEq, Repr, Inhabited

/-- Which transport status a transaction returns (R20). -/
inductive StatusPolicy where
  | last
  | firstFailure
  deriving DecidableEq, Repr, Inhabited

/-- The configuration of a session: "Selected once per session; immutable for the session's lifetime" (R17, R154). -/
structure SessionConfig where
  profile      : Profile
  addrPolicy   : AddrPolicy
  statusPolicy : StatusPolicy
  tSettle      : Nat
  deriving DecidableEq, Repr

end Sys2Proof
end

