-- ==== Sys2Proof/Syntax.lean ====
section
/-! DEFINITION. The instructions: one constructor per row of spec/opcode_table.json, and nothing else. -/

namespace Sys2Proof

/-- The rows of the opcode table (30_encoding.md R64): level 1, the command words of each profile, and level 3, the
two host commands. A WRITE word is followed in its frame by 16 data bits (R76), which the table gives no bits of its
own: they are the operand `d`. A READ word is followed by the dummy bit and 16 bits in, which carry no operand (R78).
Bits 15:0 of a READ_WORD record are ignored (R85), so they are no operand either. -/
inductive Instr where
  | ewenP6
  | ewdsP6
  | writeP6 (a : BitVec 6) (d : Word)
  | readP6 (a : BitVec 6)
  | ewenP7
  | ewdsP7
  | writeP7 (a : BitVec 7) (d : Word)
  | readP7 (a : BitVec 7)
  | ewenP8
  | ewdsP8
  | writeP8 (a : BitVec 8) (d : Word)
  | readP8 (a : BitVec 8)
  | writeWord (addr : BitVec 16) (data : Word)
  | readWord (addr : BitVec 16)
  deriving DecidableEq, Repr

end Sys2Proof
end

