-- ==== Sys2Proof/WellFormed.lean ====
section
/-! DEFINITION. What a caller must respect: a legal DeviceProfile (00_scope.md R6, 10_state.md R17), and an
instruction that the session's profile has (20_memory.md R46, 30_encoding.md R86, 70_reset_and_hazards.md R170). The
check of a request record (30_encoding.md R66) stands beside the record, in Machine/Operands.lean. -/

namespace Sys2Proof

/-- "command_bits == address_bits + 3" with address_bits one of 6, 7 or 8 (R6). -/
def DeviceProfile.wf (d : DeviceProfile) : Bool :=
  (d.addressBits == 6 || d.addressBits == 7 || d.addressBits == 8) && d.commandBits == d.addressBits + 3

/-- Configuration: a profile outside {(6,9), (7,10), (8,11)} is refused, and there is no session for it (R17). -/
def DeviceProfile.configure (d : DeviceProfile) : Option Profile :=
  if d.wf then
    match d.addressBits with
    | 6 => some .p6
    | 7 => some .p7
    | _ => some .p8
  else none

/-- The profile whose command word an instruction is; none for a host command. -/
def Instr.profile? : Instr → Option Profile
  | .ewenP6 => some .p6
  | .ewdsP6 => some .p6
  | .writeP6 _ _ => some .p6
  | .readP6 _ => some .p6
  | .ewenP7 => some .p7
  | .ewdsP7 => some .p7
  | .writeP7 _ _ => some .p7
  | .readP7 _ => some .p7
  | .ewenP8 => some .p8
  | .ewdsP8 => some .p8
  | .writeP8 _ _ => some .p8
  | .readP8 _ => some .p8
  | .writeWord _ _ => none
  | .readWord _ => none

/-- The host command's address, if the instruction is one. -/
def Instr.cmdAddr? : Instr → Option Nat
  | .writeWord a _ => some a.toNat
  | .readWord a => some a.toNat
  | _ => none

/-- An instruction fits a session of profile `p`: a command word is one of that profile's (R86), and a host command
has an address the host may present, below `2^A` (R46, R161): the first of the host's duties of R170, which log 23
lists. -/
def Instr.wf (p : Profile) (i : Instr) : Bool :=
  (match i.profile? with
    | some q => q == p
    | none => true)
  && (match i.cmdAddr? with
    | some a => decide (a < 2 ^ p.addrBits)
    | none => true)

end Sys2Proof
end

