-- ==== Sys2Proof/Decode.lean ====
section
/-! DEFINITION. Bit strings and words (00_scope.md R8, R9), the decoder of wire frames and of host records
(30_encoding.md R69 to R86), and after it the encoder. -/

namespace Sys2Proof

/-! ## Bit strings: MSB first, in transmission order (R9, R47) -/

/-- `msb_bits(v, n)`: the `n`-bit string of `v[n-1:0]`, most-significant bit first (R9). -/
def msbBits (v : Nat) : Nat → List Bool
  | 0 => []
  | n + 1 => v.testBit n :: msbBits v n

/-- The unsigned value of a bit string, its first bit the most significant. -/
def bitsVal (bits : List Bool) : Nat := bits.foldl (fun acc b => 2 * acc + b.toNat) 0

/-- The bit string of a byte list (R9): each byte MSB first, in buffer order. -/
def bufferBits (buf : List Byte) : List Bool := buf.flatMap (fun b => msbBits b.toNat 8)

/-- A transport read's buffer (10_state.md R25, 20_memory.md R47): `8n` bits clocked in fill `n` bytes in order, each
MSB first, so that the first bit clocked in is bit 7 of the first byte. -/
def clockIn : Nat → List Bool → List Byte
  | 0, _ => []
  | n + 1, bits => BitVec.ofNat 8 (bitsVal (bits.take 8)) :: clockIn n (bits.drop 8)

/-- `data[7:0]` (R101). -/
def lowByte (d : Word) : Byte := d.extractLsb' 0 8

/-- `data[15:8]` (R101). -/
def highByte (d : Word) : Byte := d.extractLsb' 8 8

/-- `WORD_ASSEMBLE([b0, b1]) = (b1 << 8) | b0` (40_codec.md R99, 20_memory.md R49, C1). -/
def wordAssemble (p : BytePair) : Word := (p.b1.setWidth 16 <<< 8) ||| p.b0.setWidth 16

/-- The two bytes of a Word in wire order, low byte first (20_memory.md R48). -/
def wordSplit (d : Word) : BytePair := ⟨lowByte d, highByte d⟩

/-! ## The rows of each profile -/

/-- The EWEN row of a profile. -/
def Instr.ewenOf : Profile → Instr
  | .p6 => .ewenP6
  | .p7 => .ewenP7
  | .p8 => .ewenP8

/-- The EWDS row of a profile. -/
def Instr.ewdsOf : Profile → Instr
  | .p6 => .ewdsP6
  | .p7 => .ewdsP7
  | .p8 => .ewdsP8

/-- The WRITE row of a profile, with the low `A` bits of the address. -/
def Instr.writeOf (p : Profile) (a : Nat) (d : Word) : Instr :=
  match p with
  | .p6 => .writeP6 (BitVec.ofNat 6 a) d
  | .p7 => .writeP7 (BitVec.ofNat 7 a) d
  | .p8 => .writeP8 (BitVec.ofNat 8 a) d

/-- The READ row of a profile, with the low `A` bits of the address. -/
def Instr.readOf (p : Profile) (a : Nat) : Instr :=
  match p with
  | .p6 => .readP6 (BitVec.ofNat 6 a)
  | .p7 => .readP7 (BitVec.ofNat 7 a)
  | .p8 => .readP8 (BitVec.ofNat 8 a)

/-- The word address and data of a WRITE frame, if the instruction is one. -/
def Instr.writeArgs? : Instr → Option (Nat × Word)
  | .writeP6 a d => some (a.toNat, d)
  | .writeP7 a d => some (a.toNat, d)
  | .writeP8 a d => some (a.toNat, d)
  | _ => none

/-- The word address of a READ frame, if the instruction is one. -/
def Instr.readArg? : Instr → Option Nat
  | .readP6 a => some a.toNat
  | .readP7 a => some a.toNat
  | .readP8 a => some a.toNat
  | _ => none

/-! ## Decoding a frame: what the block drives on the wire inside one CS frame -/

/-- Why a bit string is no command-word frame of the block. The letters are those of R86, "not emitted by this block".
The empty strobe frame, which the block does emit (R77, R79), is no command word and none of (a) to (e); R86 is silent
on it, and the decoder answers `frameLength` for it. DESIGN CHOICE, safe (log 21). -/
inductive DecodeError where
  /-- (a) the first bit is 0: no start bit -/
  | noStartBit
  /-- (b) `100` with a field whose top two bits are `01` or `10` -/
  | enableFieldMixed
  /-- (c) `100` with a field that begins `11` but is not all ones -/
  | enableNotAllOnes
  /-- (d) `100` with a field that begins `00` but is not all zeros -/
  | disableNotAllZeros
  /-- (e) start+opcode `111` -/
  | opcode111
  /-- the length is not the one R83 gives for the first three bits and `A`; also the empty strobe frame (log 21) -/
  | frameLength
  /-- the dummy bit of a READ frame is not 0 (R78) -/
  | dummyNotZero
  /-- a value whose highest set bit is at no profile's start-bit position -/
  | notACommandWord
  /-- a host record of more than 33 bits (R85) -/
  | recordTooWide
  deriving DecidableEq, Repr

/-- A frame that starts `100`: EWEN if the `A`-bit field is all ones (R70), EWDS if it is all zeros (R71), and nothing
the block emits otherwise (R86 b, c, d). Nothing follows the command word inside the frame (R75). -/
def decodeEnable (p : Profile) (field : List Bool) : Except DecodeError Instr :=
  if field.length ≠ p.addrBits then .error .frameLength
  else if field = List.replicate p.addrBits true then .ok (Instr.ewenOf p)
  else if field = List.replicate p.addrBits false then .ok (Instr.ewdsOf p)
  else match field with
    | true :: true :: _ => .error .enableNotAllOnes
    | false :: false :: _ => .error .disableNotAllZeros
    | _ => .error .enableFieldMixed

/-- A frame that starts `101`: `A` address bits, then the low data byte, then the high one (R72, R76). -/
def decodeWrite (p : Profile) (rest : List Bool) : Except DecodeError Instr :=
  if rest.length ≠ p.addrBits + 16 then .error .frameLength
  else
    let data := rest.drop p.addrBits
    .ok (Instr.writeOf p (bitsVal (rest.take p.addrBits))
      (wordAssemble ⟨BitVec.ofNat 8 (bitsVal (data.take 8)), BitVec.ofNat 8 (bitsVal (data.drop 8))⟩))

/-- A frame that starts `110`: `A` address bits, then the dummy bit 0 (R73, R78). -/
def decodeRead (p : Profile) (rest : List Bool) : Except DecodeError Instr :=
  if rest.length ≠ p.addrBits + 1 then .error .frameLength
  else if rest.drop p.addrBits = [false] then .ok (Instr.readOf p (bitsVal (rest.take p.addrBits)))
  else .error .dummyNotZero

/-- The wire monitor (R83, R86): which instruction of profile `p` a frame's driven bits are, or why they are none.
The profile is configuration: "`A` is not carried in any bit" (R83). That the empty strobe frame, which carries no
instruction of the table, answers `frameLength` like any other string of fewer than three bits is the model's choice:
DESIGN CHOICE, safe (log 21). -/
def decodeFrame (p : Profile) : List Bool → Except DecodeError Instr
  | false :: _ => .error .noStartBit
  | true :: false :: false :: field => decodeEnable p field
  | true :: false :: true :: rest => decodeWrite p rest
  | true :: true :: false :: rest => decodeRead p rest
  | true :: true :: true :: _ => .error .opcode111
  | _ => .error .frameLength

/-! ## Decoding a host record -/

/-- The packed 33-bit record (R85): `cmd_op` at bit 32, `cmd_addr` at bits 31:16, `cmd_data` at bits 15:0. "Every
33-bit value spells a command." -/
def decodeHost (r : BitVec 33) : Instr :=
  if r[32] then .readWord (r.extractLsb' 16 16)
  else .writeWord (r.extractLsb' 16 16) (r.extractLsb' 0 16)

/-! ## Both levels -/

/-- An instruction as bits, at its own level (R64): the bits driven in one frame of a session of profile `p`, or a
host record. -/
inductive Encoded where
  | frame (p : Profile) (bits : List Bool)
  | host (r : BitVec 33)
  deriving DecidableEq, Repr

/-- The decoder, total on every bit string and every record. -/
def decode : Encoded → Except DecodeError Instr
  | .frame p bits => decodeFrame p bits
  | .host r => .ok (decodeHost r)

/-- The profile whose `C`-bit command words have their start bit where the highest set bit of `w` is: bit 8 for P6,
9 for P7, 10 for P8 (the values of R70 to R73). DEDUCED, safe (log 18). -/
def profileOfWord (w : Nat) : Option Profile :=
  if w < 0x100 then none
  else if w < 0x200 then some .p6
  else if w < 0x400 then some .p7
  else if w < 0x800 then some .p8
  else none

/-- The bits the frame of a command word has after the word, all zero: 16 data bits for `101`, the dummy bit for
`110`, none for `100` (R83). -/
def operandZeros (command : List Bool) : List Bool :=
  match command with
  | true :: false :: true :: _ => List.replicate 16 false
  | true :: true :: false :: _ => [false]
  | _ => []

/-- A command word of the table, its `C` bits read as one number (R70 to R73), with every operand bit after it 0. -/
def decodeCommandWord (w : Nat) : Except DecodeError Instr :=
  match profileOfWord w with
  | none => .error .notACommandWord
  | some p => decode (.frame p (msbBits w p.cmdBits ++ operandZeros (msbBits w p.cmdBits)))

/-- A row of the opcode table from its bits, as the table numbers them. Command words take at most 16 bits, and host
records 33 (R64, log 18). -/
def decodeTableWord (nbits w : Nat) : Option Instr :=
  if nbits ≤ 16 then (decodeCommandWord w).toOption
  else if w < 2 ^ 33 then (decode (.host (BitVec.ofNat 33 w))).toOption
  else none

/-! ## The encoder, from the tables of R70 to R78 and R85 -/

/-- EWEN: `100 11` then `1`×(A−2) (R70). -/
def encodeEwen (p : Profile) : List Bool :=
  [true, false, false, true, true] ++ List.replicate (p.addrBits - 2) true

/-- EWDS: `100 00` then `0`×(A−2) (R71). -/
def encodeEwds (p : Profile) : List Bool :=
  [true, false, false, false, false] ++ List.replicate (p.addrBits - 2) false

/-- The WRITE frame: `101 ++ msb_bits(addr, A) ++ msb_bits(data[7:0], 8) ++ msb_bits(data[15:8], 8)` (R76). -/
def encodeWrite (p : Profile) (a : Nat) (d : Word) : List Bool :=
  [true, false, true] ++ msbBits a p.addrBits ++ msbBits (lowByte d).toNat 8 ++ msbBits (highByte d).toNat 8

/-- What the block drives in a READ frame: `110 ++ msb_bits(addr, A) ++ 0` (R78). -/
def encodeRead (p : Profile) (a : Nat) : List Bool :=
  [true, true, false] ++ msbBits a p.addrBits ++ [false]

/-- The packed host record (R85). -/
def encodeHost (op : BitVec 1) (addr : BitVec 16) (data : Word) : BitVec 33 := op ++ addr ++ data

/-- The encoding of every instruction. -/
def encode : Instr → Encoded
  | .ewenP6 => .frame .p6 (encodeEwen .p6)
  | .ewdsP6 => .frame .p6 (encodeEwds .p6)
  | .writeP6 a d => .frame .p6 (encodeWrite .p6 a.toNat d)
  | .readP6 a => .frame .p6 (encodeRead .p6 a.toNat)
  | .ewenP7 => .frame .p7 (encodeEwen .p7)
  | .ewdsP7 => .frame .p7 (encodeEwds .p7)
  | .writeP7 a d => .frame .p7 (encodeWrite .p7 a.toNat d)
  | .readP7 a => .frame .p7 (encodeRead .p7 a.toNat)
  | .ewenP8 => .frame .p8 (encodeEwen .p8)
  | .ewdsP8 => .frame .p8 (encodeEwds .p8)
  | .writeP8 a d => .frame .p8 (encodeWrite .p8 a.toNat d)
  | .readP8 a => .frame .p8 (encodeRead .p8 a.toNat)
  | .writeWord a d => .host (encodeHost 0 a d)
  | .readWord a => .host (encodeHost 1 a 0)

/-- The driven bits of a command-word instruction's frame; none for a host command. -/
def Instr.frameBits (i : Instr) : List Bool :=
  match encode i with
  | .frame _ bits => bits
  | .host _ => []

/-- The number the table gives an instruction: a command word's `C` bits (R70 to R73), or the record (R85). -/
def Instr.tableWord (i : Instr) : Nat :=
  match encode i with
  | .frame p bits => bitsVal (bits.take p.cmdBits)
  | .host r => r.toNat

end Sys2Proof
end

