-- ==== Sys2Proof/Machine/State.lean ====
section
/-! DEFINITION. The state of the block and of its surroundings, as plain data (10_state.md R15 to R44), and reset
(70_reset_and_hazards.md R153). -/

namespace Sys2Proof.Machine

/-- `st`: the 13 sequencer states (R29). -/
inductive Seq where
  | idle
  | wEwen
  | wOp
  | wAddr
  | wData
  | wStrbOn
  | wSettle
  | wStrbOff
  | wEwds
  | rOp
  | rAddr
  | rDummy
  | rData
  deriving DecidableEq, Repr

/-- `op_q`: one bit, 0 = WRITE_WORD, 1 = READ_WORD (R21, R28). -/
inductive HostOp where
  | writeWord
  | readWord
  deriving DecidableEq, Repr

/-- The CS-frame controller's view of chip-select (R31). -/
inductive CsView where
  | deasserted
  | asserted
  deriving DecidableEq, Repr

/-- The unit of a transport write's length (30_encoding.md R66). -/
inductive TxUnit where
  | bits
  | bytes
  deriving DecidableEq, Repr

/-- The request records of 30_encoding.md R66 (write), R67 (read) and R68 (delay). -/
inductive Request where
  | write (unit : TxUnit) (len : Nat) (buf : List Byte) (acs dcs : Bool)
  | read (n : Nat) (dcs : Bool)
  | delay (t : Nat)
  deriving DecidableEq, Repr

/-- What answered a request, as the trace pairs it (R42, R84): a status for a write; a status, `n_xfer` and the bytes
for a read; nothing but its end for a delay. -/
inductive Reply where
  | status (s : Status)
  | read (s : Status) (nXfer : Nat) (rx : List Byte)
  | settled
  deriving DecidableEq, Repr

/-- One line of the trace: the request record and the answer to it (R42). -/
structure TraceEntry where
  req   : Request
  reply : Reply
  deriving DecidableEq, Repr

/-- The TransactionResult (R12, R23): a status and, for READ_WORD only, the recovered Word. The Word is there whatever
the status, and the host must "trust `rsp_data` only when `rsp_status = SUCCESS`" (41_sequencer.md R130,
70_reset_and_hazards.md R170; log 23): `Response.trusted?` in Machine/Flags.lean is the Word it may trust. -/
structure Response where
  status : Status
  data   : Option Word
  deriving DecidableEq, Repr

/-- The block's fault kinds with the info each records (60_exceptions.md R140). They are written into the `fault`
register by a NEXT state; a step never ends in one. -/
inductive BlockFault where
  /-- code 1, F_ADDR_RANGE: `cmd_addr >= 2^A` under REFUSE; records `cmd_addr` -/
  | addrRange (cmdAddr : BitVec 16)
  /-- code 2, F_CS_FRAME: a request against the framing contract; records the request and `cs` -/
  | csFrame (req : Request) (cs : CsView)
  /-- code 3, F_ABORTED: a transaction cut short; records the `st` at which it stopped -/
  | aborted (stoppedAt : Seq)
  deriving DecidableEq, Repr

/-- The messages of the three CsPre checks (40_codec.md R106, R107). -/
inductive CsViolation where
  | assertWhileAsserted
  | continuationOutsideFrame
  | readOutsideFrame
  deriving DecidableEq, Repr

/-- What stands behind the transport response port (R15, R16, R27). DESIGN CHOICE (log 3, 4, 7, 22). -/
inductive Transport where
  /-- every answer is a free value -/
  | draws
  /-- the loopback mock "a test harness may substitute" (R27, D15) -/
  | loopback
  /-- a transport that answers freely, with a device whose words are visible under the conditions of R59 (D22) -/
  | device
  /-- a transport that never answers (R16) -/
  | silent
  deriving DecidableEq, Repr

/-- The machine.
`cfg` is the configuration; `st` to `fault` are the registers of R28; `cmds`, `responses` and `txIn` are the command,
response and transport-response ports of R21; `trace` is the observation record of R42; `transport` and `settleEnds`
are the surroundings' behaviour; `mem`, `writeCycle` and `deviceProfile` are the device's; `accepted` and
`draws` are the model's own. -/
structure State where
  /-- the session's configuration, never written (R17, R154) -/
  cfg        : SessionConfig
  /-- sequencer state (R29) -/
  st         : Seq
  /-- the accepted command's operation (R30) -/
  opQ        : HostOp
  /-- the accepted command's address after the policy, `A` bits, always below `2^A` (R30; log 17) -/
  addrQ      : BitVec 8
  /-- the accepted WRITE_WORD's data (R30) -/
  dataQ      : Word
  /-- the CS view (R31) -/
  cs         : CsView
  /-- the two bytes of the last read (R32) -/
  rxQ        : BytePair
  /-- `bytes_transferred` of the last read; nothing reads it (R32) -/
  nxQ        : Nat
  /-- status of the most recent transport response (R33) -/
  lastStatus : Status
  /-- first non-SUCCESS status of the transaction, or none (R34) -/
  firstFail  : Option Status
  /-- the sticky fault set, one record per kind, in the order raised (R28, R140; log 13) -/
  fault      : List BlockFault
  /-- the records the host has yet to present on the command port, the next one first (R21, R85; log 15) -/
  cmds       : List (BitVec 33)
  /-- the responses delivered, oldest first (R23) -/
  responses  : List Response
  /-- commands accepted, the model's own count (R23, R43; log 16) -/
  accepted   : Nat
  /-- the requests issued and their answers, oldest first (R42) -/
  trace      : List TraceEntry
  /-- the answers standing on the transport response port, the next one first (R21, R27; log 3) -/
  txIn       : List TxAnswer
  /-- what stands behind the transport response port (log 3, 4, 7, 22) -/
  transport  : Transport
  /-- the settle timer ends the delay now pending (R121, R169; log 5) -/
  settleEnds : Bool
  /-- the reference device's bytes: word `w` at byte addresses `2w` (first on the wire) and `2w+1` (log 7) -/
  mem        : List Host.Cell
  /-- the device's write-cycle time, against which R59 and R163 hold `T_SETTLE` (log 22) -/
  writeCycle : Nat
  /-- the profile the device on the channel requires, which the session's should match (R155, R162; log 24) -/
  deviceProfile : Profile
  /-- the counter the free values are drawn by, the model's own (log 3) -/
  draws      : Nat
  deriving DecidableEq, Repr

/-- What `step` does next: nothing (the block waits for a command, or a fault has stopped it), the instruction the
sequencer runs now, or one of the three steps of the strobe frame, which the opcode table has no row for. -/
inductive Activity where
  | wait
  | run (i : Instr)
  | strobeOn
  | settle
  | strobeOff
  deriving DecidableEq, Repr

/-- What can stop a run with a fault. The block's own faults (R140) are not here: they are state. -/
inductive Fault where
  /-- A command word's meaning was asked for while the sequencer is in a state that issues no part of its frame:
  "Only the sequencer invokes a codec primitive, one per sequencer state" (40_codec.md R87). Raised by the meanings of
  the command words only, never by `step`. Safe (log 8). -/
  | outOfSequence (st : Seq)
  deriving DecidableEq, Repr

/-- What has no meaning. -/
inductive Refusal where
  /-- An arm of `exec` whose instruction has no meaning yet. No arm raises it. Safe. -/
  | notModelled (mnemonic : String)
  /-- A command word of another profile than the session's: the block "has no behaviour for such patterns, because it
  never produces them" (30_encoding.md R86; 10_state.md R17). Raised by the meanings of the command words only, never
  by `step`. Safe (log 9). -/
  | otherProfile (word session : Profile)
  deriving DecidableEq, Repr

/-- The block right after reset in a session with configuration `c` (R153): `st = IDLE`, `cs = DEASSERTED`,
`fault = ∅`, `first_fail = none`. The six registers R153 leaves unspecified hold the values of log 2 (DESIGN CHOICE,
unsafe). Nothing is presented, answered, issued or stored yet, and the device is one of the session's profile (R155;
log 24). -/
def State.resetWith (c : SessionConfig) : State where
  cfg := c
  st := .idle
  opQ := .writeWord
  addrQ := 0
  dataQ := 0
  cs := .deasserted
  rxQ := ⟨0, 0⟩
  nxQ := 0
  lastStatus := .success
  firstFail := none
  fault := []
  cmds := []
  responses := []
  accepted := 0
  trace := []
  txIn := []
  transport := .draws
  settleEnds := true
  mem := []
  writeCycle := Config.writeCycleTime
  deviceProfile := c.profile
  draws := 0

/-- The session of `State.reset`: the default policies of R19 and R20, and, as the spec has no default profile, P6
(DESIGN CHOICE, unsafe: log 1); `T_SETTLE` is open (log 5). -/
def SessionConfig.standard : SessionConfig where
  profile := .p6
  addrPolicy := .refuse
  statusPolicy := .last
  tSettle := Config.settleInterval

/-- The machine right after reset (R153). -/
def State.reset : State := State.resetWith SessionConfig.standard

end Sys2Proof.Machine
end

