-- ==== Sys2Proof/Machine/Operands.lean ====
section
/-! DEFINITION. Operand forms: the host address after the address policy (41_sequencer.md R113), the address byte
(40_codec.md R100), and the bits a request puts on the wire (10_state.md R24, R25). -/

namespace Sys2Proof.Machine

/-- `AddrPolicy(cmd_addr)` (R113): the address itself below `2^A`; otherwise a fault under REFUSE and the address
modulo `2^A` under TRUNCATE. -/
def addrPolicy (c : SessionConfig) (a : BitVec 16) : Except BlockFault (BitVec 8) :=
  if a.toNat < 2 ^ c.profile.addrBits then .ok (a.setWidth 8)
  else match c.addrPolicy with
    | .refuse => .error (.addrRange a)
    | .truncate => .ok (BitVec.ofNat 8 (a.toNat % 2 ^ c.profile.addrBits))

/-- `addr_byte(addr) = byte(addr << (8 - A))` (R100). It checks no range: an operand of `2^A` or more is truncated
(R105). -/
def addrByte (p : Profile) (addr : Nat) : Byte := BitVec.ofNat 8 (addr <<< (8 - p.addrBits))

/-- Does a request assert CS before it? A read and a delay never do (R67, R68). -/
def Request.acs : Request → Bool
  | .write _ _ _ acs _ => acs
  | .read _ _ => false
  | .delay _ => false

/-- Does a request deassert CS after it? A delay never does (R121). -/
def Request.dcs : Request → Bool
  | .write _ _ _ _ dcs => dcs
  | .read _ dcs => dcs
  | .delay _ => false

/-- A request that is a transport call: every request but a delay (R68). -/
def Request.isCall : Request → Bool
  | .write _ _ _ _ _ => true
  | .read _ _ => true
  | .delay _ => false

/-- How many bits a write moves: `len` units of one or of eight bits (R24). -/
def TxUnit.bitCount : TxUnit → Nat → Nat
  | .bits, len => len
  | .bytes, len => 8 * len

/-- The bits a request drives on the wire: the first `len` units of the buffer's bit string, MSB first (R24, R65). A
read clocks bits in (R25) and a delay moves none (R68). -/
def Request.wireBits : Request → List Bool
  | .write unit len buf _ _ => (bufferBits buf).take (unit.bitCount len)
  | .read _ _ => []
  | .delay _ => []

/-- How many bits a request clocks in: `8n` for a read of `n` bytes (R25). -/
def Request.readBits : Request → Nat
  | .write _ _ _ _ _ => 0
  | .read n _ => 8 * n
  | .delay _ => 0

/-- The bits a request clocked in on the wire, in order: those that fill the bytes it brought, each MSB first (R25,
20_memory.md R47). `clockIn` is the way back. -/
def Reply.bitsIn : Reply → List Bool
  | .status _ => []
  | .read _ _ rx => bufferBits rx
  | .settled => []

/-- Well-formed write records (R66): no more bits, or bytes, than the buffer has. -/
def Request.wf : Request → Bool
  | .write unit len buf _ _ => decide (unit.bitCount len ≤ 8 * buf.length)
  | .read _ _ => true
  | .delay _ => true

end Sys2Proof.Machine
end

