-- ==== Sys2Proof/Machine/Flags.lean ====
section
/-! DEFINITION. Status indications (10_state.md R36, R37, R43), the capture of a status (40_codec.md R88) and the
status a transaction returns (41_sequencer.md R131), and the data a host may trust (70_reset_and_hazards.md R170). The
block has no arithmetic flags (R36). -/

namespace Sys2Proof.Machine

/-- `busy = (st ≠ IDLE)` (R36). -/
def State.busy (s : State) : Bool := decide (s.st ≠ .idle)

/-- `fault ≠ ∅` (R36). -/
def State.faulted (s : State) : Bool := !s.fault.isEmpty

/-- A transaction is running, which a reset would cut short: busy, and no fault has ended the run
(70_reset_and_hazards.md R157). -/
def State.inTransaction (s : State) : Bool := s.busy && !s.faulted

/-- `cmd_ready = (st = IDLE) ∧ (fault = ∅)` (R37). -/
def State.cmdReady (s : State) : Bool := !s.busy && !s.faulted

/-- The first failure of the transaction after one more answer: set once, by the first non-SUCCESS status (R34, R88). -/
def recordFailure (status : Status) (firstFail : Option Status) : Option Status :=
  match firstFail with
  | some f => some f
  | none => if status = .success then none else some status

/-- `ResultStatus()` (R131): the last status, or the first failure and SUCCESS if there was none. -/
def State.resultStatus (s : State) : Status :=
  match s.cfg.statusPolicy with
  | .last => s.lastStatus
  | .firstFailure => s.firstFail.getD .success

/-- The Word of a response that the host may trust: "trust `rsp_data` only when `rsp_status = SUCCESS`"
(70_reset_and_hazards.md R170, log 23). No step of the block reads it. -/
def Response.trusted? (r : Response) : Option Word := if r.status = .success then r.data else none

/-- R43: a run is complete when `st = IDLE`, `fault = ∅`, and every accepted command has had its response. -/
def State.complete (s : State) : Bool :=
  !s.busy && !s.faulted && decide (s.responses.length = s.accepted)

end Sys2Proof.Machine
end

