-- ==== Sys2Proof/Machine/Device.lean ====
section
/-! DEFINITION. The devices that may stand behind the transport, neither of them "part of the block": the loopback mock
of 95_test_vectors.md and 92_eei_decisions.md D15, while `State.transport` is `loopback` (log 7), and the device of
20_memory.md R59, while it is `device` (log 22, 24). Their store is the block's one address space, 2^A words of 16 bits
(20_memory.md R45). -/

namespace Sys2Proof.Machine

/-! ## The store: (address, byte) pairs, addresses strictly rising; an unlisted address holds no value -/

/-- The byte at an address; none if nothing has been written there ("An unwritten address answers with a draw"). -/
def memRead : List Host.Cell → Nat → Option Byte
  | [], _ => none
  | (k, b) :: rest, a => if k = a then some b else memRead rest a

/-- Write one byte, keeping the addresses in rising order. -/
def memWrite : List Host.Cell → Nat → Byte → List Host.Cell
  | [], a, b => [(a, b)]
  | (k, c) :: rest, a, b =>
    if a < k then (a, b) :: (k, c) :: rest
    else if a = k then (a, b) :: rest
    else (k, c) :: memWrite rest a b

/-- The canonical form: strictly rising addresses. No entry can equal what an unlisted address reads as, which is no
value. -/
def Memory.wf : List Host.Cell → Bool
  | [] => true
  | [_] => true
  | (a, _) :: (k, c) :: rest => decide (a < k) && Memory.wf ((k, c) :: rest)

/-- `MemWrite(addr, 2, v)` (00_scope.md R11) of the two data bytes in wire order: the first at `2·addr`. -/
def memWriteWord (m : List Host.Cell) (addr : Nat) (bytes : BytePair) : List Host.Cell :=
  memWrite (memWrite m (2 * addr) bytes.b0) (2 * addr + 1) bytes.b1

/-- `MemRead(addr, 2)` (R11): the Word whose bytes were both written, in the order READ_WORD reassembles them. -/
def memReadWord (m : List Host.Cell) (addr : Nat) : Option Word :=
  match memRead m (2 * addr), memRead m (2 * addr + 1) with
  | some b0, some b1 => some (wordAssemble ⟨b0, b1⟩)
  | _, _ => none

/-! ## Watching the request trace -/

/-- The bits driven since the last CS assertion: the mock "watches the request trace, grouping requests into frames
from `+cs` to `-cs`". -/
def openFrame (trace : List TraceEntry) : List Bool :=
  trace.foldl (fun acc e => if e.req.acs then e.req.wireBits else acc ++ e.req.wireBits) []

/-- The word address and the data that a request stores, `trace` ending in that request: those of the WRITE frame it
closes. Every other frame does "nothing", and a read closes no WRITE frame. -/
def deviceTarget (p : Profile) (trace : List TraceEntry) (req : Request) : Option (Nat × Word) :=
  match req with
  | .write _ _ _ _ true =>
    match decodeFrame p (openFrame trace) with
    | .ok i => i.writeArgs?
    | .error _ => none
  | .write _ _ _ _ false => none
  | .read _ _ => none
  | .delay _ => none

/-- The mock's store after a request has been issued: the two data bytes in wire order under the frame's address. -/
def deviceStore (p : Profile) (trace : List TraceEntry) (req : Request) (m : List Host.Cell) : List Host.Cell :=
  match deviceTarget p trace req with
  | some (a, d) => memWriteWord m a (wordSplit d)
  | none => m

/-- Byte `k` of the word under the open READ frame's address, `trace` being the requests before the read; none if
nothing has been written there, and none outside a READ frame. -/
def frameByte (p : Profile) (trace : List TraceEntry) (m : List Host.Cell) (k : Nat) : Option Byte :=
  match decodeFrame p (openFrame trace) with
  | .ok i =>
    match i.readArg? with
    | some a => if k < 2 then memRead m (2 * a + k) else none
    | none => none
  | .error _ => none

/-! ## The device of R59: what a real device is said to hold, and when (20_memory.md R55, R59; D22, D23) -/

/-- The session's profile is the one the device requires: the premise under which "a model states claims about device
contents" (70_reset_and_hazards.md R162, N7; log 24). -/
def State.profileMatches (s : State) : Bool := decide (s.cfg.profile = s.deviceProfile)

/-- Conditions 1 and 2 of R59, once the last call of a WRITE_WORD has been answered: every call returned SUCCESS, so
`first_fail` is none (R34), and `T_SETTLE` is at least the device's write-cycle time (R163); and the premise of R162. -/
def State.writeVisible (s : State) : Bool :=
  s.profileMatches && decide (s.firstFail = none) && decide (s.writeCycle ≤ s.cfg.tSettle)

/-- What a WRITE_WORD leaves in that device: the word at `addr_q` becomes the data under those conditions; otherwise the
contents are unconstrained (D23), so the store forgets them. -/
def settleWrite (s : State) : State :=
  match s.transport with
  | .device => { s with mem := if s.writeVisible then memWriteWord s.mem s.addrQ.toNat (wordSplit s.dataQ) else [] }
  | .draws => s
  | .loopback => s
  | .silent => s

/-- A read of `n` bytes that returned SUCCESS and is not short: with `n_xfer` below `n` a model "draws the bytes"
(40_codec.md R98, N8), and of a failed read the bytes are any value too (93_implementation_defined.md I7). -/
def fullRead (ans : TxAnswer) (n : Nat) : Bool := decide (ans.status = .success) && decide (n ≤ ans.nXfer)

/-- Condition 3 of R59, for the read that ends a READ_WORD: every call of it returned SUCCESS, and the read is not short
(R98; log 22); and the premise of R162. -/
def State.readVisible (s : State) (ans : TxAnswer) (n : Nat) : Bool :=
  s.profileMatches && fullRead ans n && decide (s.firstFail = none)

/-! ## What a read clocks in -/

/-- The byte a device gives as byte `k` of a read of `n` bytes, if a device gives one: the mock the stored one if the
read is full, the device of R59 the stored one if the read is visible. -/
def State.deviceByte? (s : State) (ans : TxAnswer) (n k : Nat) : Option Byte :=
  match s.transport with
  | .draws => none
  | .loopback => if fullRead ans n then frameByte s.cfg.profile s.trace s.mem k else none
  | .device => if s.readVisible ans n then frameByte s.cfg.profile s.trace s.mem k else none
  | .silent => none

/-- The `8n` bits on the data line at the clocks of a read of `n` bytes: those of the device, which "returns them in the
same order", and a draw for each byte no device gives (R27). -/
def State.lineBits (s : State) (ans : TxAnswer) (n : Nat) : List Bool :=
  bufferBits ((List.range n).map (fun k => (s.deviceByte? ans n k).getD (Config.rxByte s.draws k)))

/-- `rx`, "a byte list of the requested length" (R21): the bytes the answer lists, and for the rest of the buffer the
line's bits, clocked in MSB first (R25). -/
def State.received (s : State) (ans : TxAnswer) (n : Nat) : List Byte :=
  ans.rx.take n ++ (clockIn n (s.lineBits ans n)).drop ans.rx.length

/-- The two bytes of a read of two, `b0` first (R32). The block always requests two (30_encoding.md R67), so the last
two cases do not arise (`received_length`). -/
def pairOf : List Byte → BytePair
  | b0 :: b1 :: _ => ⟨b0, b1⟩
  | [b0] => ⟨b0, 0⟩
  | [] => ⟨0, 0⟩

end Sys2Proof.Machine
end

