-- ==== Sys2Proof/Machine/Ops.lean ====
section
/-! DEFINITION. The operations shared by every meaning: raising a fault (60_exceptions.md R140, R141), the CS-frame
controller (40_codec.md R104 to R108), `Issue` (R88), the settle delay (41_sequencer.md R121), the sequencer's advance
and response (R124, R130, R134), acceptance (R111), and reset with the new session that follows a fault
(70_reset_and_hazards.md R153 to R157). -/

namespace Sys2Proof.Machine

/-! ## Faults -/

/-- The codes of R140. -/
def BlockFault.code : BlockFault → Nat
  | .addrRange _ => 1
  | .csFrame _ _ => 2
  | .aborted _ => 3

/-- The `fault` set with one more kind: a kind already in it keeps the info it was first raised with (log 13). -/
def addFault (f : BlockFault) (fs : List BlockFault) : List BlockFault :=
  if fs.any (fun g => g.code == f.code) then fs else fs ++ [f]

/-- `raise Fault(k, info)` (R141): adds `k` to `fault` and does nothing else. It issues no request and delivers no
response, and `cmd_ready` is 0 from then on. This is the one way the block takes an exception. -/
def raiseFault (f : BlockFault) (s : State) : State := { s with fault := addFault f s.fault }

/-! ## CS-frame controller -/

/-- The checks of CsPre: R106 for a write, R107 for a read; a delay is no transport call and has none (R68). -/
def csCheck : Request → CsView → Option CsViolation
  | .write _ _ _ true _, .asserted => some .assertWhileAsserted
  | .write _ _ _ false _, .deasserted => some .continuationOutsideFrame
  | .read _ _, .deasserted => some .readOutsideFrame
  | _, _ => none

/-- The CS view after CsPre and CsPost (R106, R108): it "records the framing the block requested", whatever the
status. -/
def csAfter (req : Request) (cs : CsView) : CsView :=
  if req.dcs then .deasserted
  else if req.acs then .asserted
  else cs

/-! ## Issue -/

/-- The transport's answer to the request the block issues now (R27): the next one on the transport response port;
with none there, a draw, the mock's SUCCESS, or no answer at all. The mock and the device of R59 list no bytes
themselves: theirs are on the data line (log 3, 4, 7, 22). The mock's `n_xfer` is a draw that is not short of the two
bytes it returns (log 7). -/
def State.answer? (s : State) : Option TxAnswer :=
  match s.txIn with
  | ans :: _ => some ans
  | [] =>
    match s.transport with
    | .draws => some (Config.txAnswer s.draws)
    | .loopback => some ⟨.success, max 2 (Config.txAnswer s.draws).nXfer, []⟩
    | .device => some { Config.txAnswer s.draws with rx := [] }
    | .silent => none

/-- What the trace pairs with a request (R42): the parts of the answer that R21 gives its kind of request. -/
def replyTo (req : Request) (ans : TxAnswer) (s : State) : Reply :=
  match req with
  | .write _ _ _ _ _ => .status ans.status
  | .read n _ => .read ans.status ans.nXfer (s.received ans n)
  | .delay _ => .settled

/-- `Issue(req)` once CsPre has passed and the transport has answered (R88): the trace line, `last_status`,
`first_fail` and the CS view. The answer leaves the response port, the draw counter advances, and the mock, if it is
the transport, watches the request go by. -/
def issueAnswered (req : Request) (ans : TxAnswer) (s : State) : State :=
  let trace := s.trace ++ [⟨req, replyTo req ans s⟩]
  { s with
    cs := csAfter req s.cs
    trace := trace
    lastStatus := ans.status
    firstFail := recordFailure ans.status s.firstFail
    txIn := s.txIn.tail
    draws := s.draws + 1
    mem := if s.transport = .loopback then deviceStore s.cfg.profile trace req s.mem else s.mem }

/-- `Issue(req)` (R88), then `done`, the rest of the same step. A CsPre violation raises F_CS_FRAME before the
request is issued; while the transport has not answered, the block has no step (R16, log 4). -/
def issue (req : Request) (done : TxAnswer → State → State) (s : State) : State :=
  match csCheck req s.cs with
  | some _ => raiseFault (.csFrame req s.cs) s
  | none =>
    match s.answer? with
    | none => s
    | some ans => done ans (issueAnswered req ans s)

/-! ## Sequencer -/

/-- The next-state function (R134). -/
def Seq.next : Seq → Seq
  | .idle => .idle
  | .wEwen => .wOp
  | .wOp => .wAddr
  | .wAddr => .wData
  | .wData => .wStrbOn
  | .wStrbOn => .wSettle
  | .wSettle => .wStrbOff
  | .wStrbOff => .wEwds
  | .wEwds => .idle
  | .rOp => .rAddr
  | .rAddr => .rDummy
  | .rDummy => .rData
  | .rData => .idle

/-- `st <-` the next state (R134). -/
def advance (s : State) : State := { s with st := s.st.next }

/-- `respond(ResultStatus(), data)` and `st <-` the next state, which is IDLE (R124, R130). -/
def complete (data : Option Word) (s : State) : State :=
  { s with
    responses := s.responses ++ [⟨s.resultStatus, data⟩]
    st := s.st.next }

/-- `Delay(T_SETTLE)` (R121), then the next state: one step, which the settle timer ends; until it does, the block has
no step. It writes neither `last_status` nor `first_fail` and leaves `cs` unchanged. -/
def settleDelay (s : State) : State :=
  if s.settleEnds then advance { s with trace := s.trace ++ [⟨.delay s.cfg.tSettle, .settled⟩] }
  else s

/-- The first state of an operation's sequence, "the only branch the sequencer takes" (R112). -/
def HostOp.firstState : HostOp → Seq
  | .writeWord => .wEwen
  | .readWord => .rOp

/-- `Accept(cmd_op, cmd_addr, cmd_data)` (R111), in the pseudocode's order: `op_q` is written before the address
policy may raise F_ADDR_RANGE (log 10). `data_q` is written by WRITE_WORD only (R114). -/
def accept (op : HostOp) (addr : BitVec 16) (data : Word) (s : State) : State :=
  match addrPolicy s.cfg addr with
  | .error f => raiseFault f { s with opQ := op }
  | .ok a =>
    { s with
      opQ := op
      addrQ := a
      dataQ := if op = .writeWord then data else s.dataQ
      firstFail := none
      st := op.firstState
      accepted := s.accepted + 1 }

/-! ## Reset and sessions: events from outside, which `step` has no move for (R170, log 14) -/

/-- The end of a run by a reset in a transaction (R157): F_ABORTED records the `st` it stopped at, that command gets no
response, and "a model treats all later device contents as draws", so the store forgets them (log 14). -/
def State.abort (s : State) : State := raiseFault (.aborted s.st) { s with mem := [] }

/-- What a device's store holds at the start of a session with configuration `c`. DESIGN CHOICE (log 14, 24): its
contents outlast the session before only if that one ended at a transaction boundary (R157) and the device is one of
the profile of both sessions (R162); otherwise nothing is said of them. -/
def State.memFor (c : SessionConfig) (s : State) : List Host.Cell :=
  if s.st = .idle ∧ c.profile = s.cfg.profile ∧ c.profile = s.deviceProfile then s.mem else []

/-- A reset of the block, and a new session in the configuration chosen for it (R153 to R156). In a transaction the
reset ends the run with F_ABORTED and begins no session (R157); the next one does. At a boundary, or once a fault has
ended the run, every register takes its reset value, and the surroundings go on: the transport, the timer and the
device on the channel stay the same (log 14). -/
def State.newSession (c : SessionConfig) (s : State) : State :=
  if s.inTransaction then s.abort
  else { State.resetWith c with
    txIn := s.txIn
    transport := s.transport
    settleEnds := s.settleEnds
    mem := s.memFor c
    writeCycle := s.writeCycle
    deviceProfile := s.deviceProfile
    draws := s.draws }

/-- A reset of the block, in the configuration it has (R153, R156, R157; log 14). -/
def State.hostReset (s : State) : State := s.newSession s.cfg

end Sys2Proof.Machine
end

