-- ==== Sys2Proof/Machine/HostCommands.lean ====
section
/-! DEFINITION. The meanings of the host commands (opcode table rows WRITE_WORD and READ_WORD): presentation and
acceptance in one step (41_sequencer.md R111). The rest of the transaction is the sequencer's (R115, R125), a step at a
time. -/

namespace Sys2Proof.Machine

/-- A command is accepted while `cmd_ready = 1`; while `cmd_ready = 0` the host holds and nothing happens (10_state.md
R22, R37; log 12). -/
def present (op : HostOp) (addr : BitVec 16) (data : Word) (s : State) : State :=
  if s.cmdReady then accept op addr data s else s

/-- WRITE_WORD addr, data (R111, R115). -/
def execWriteWord (addr : BitVec 16) (data : Word) (s : State) : Host.Outcome State Fault Refusal :=
  .next (present .writeWord addr data s)

/-- READ_WORD addr (R111, R125): `cmd_data` is ignored (R114). -/
def execReadWord (addr : BitVec 16) (s : State) : Host.Outcome State Fault Refusal :=
  .next (present .readWord addr 0 s)

end Sys2Proof.Machine
end

