-- ==== Sys2Proof/Machine/Codec.lean ====
section
/-! DEFINITION. The codec's primitives (40_codec.md R87 to R98): the request each one issues (30_encoding.md R81), and
the step in which the sequencer invokes it and moves on (41_sequencer.md R116 to R130). -/

namespace Sys2Proof.Machine

/-! ## The requests of R81, with the filler bytes and the byte mode the spec chose (R82, log 19) -/

/-- ENC_EWEN (R89): `W{BITS, C, [0x9F, 0xFF], acs=1, dcs=1}`. -/
def reqEwen (p : Profile) : Request := .write .bits p.cmdBits [0x9F, 0xFF] true true

/-- ENC_EWDS (R90): `W{BITS, C, [0x80, 0x00], acs=1, dcs=1}`. -/
def reqEwds (p : Profile) : Request := .write .bits p.cmdBits [0x80, 0x00] true true

/-- ENC_WRITE_OP (R91): `W{BITS, 3, [0xA0], acs=1, dcs=0}`. -/
def reqWriteOp : Request := .write .bits 3 [0xA0] true false

/-- ENC_READ_OP (R92): `W{BITS, 3, [0xC0], acs=1, dcs=0}`. -/
def reqReadOp : Request := .write .bits 3 [0xC0] true false

/-- ENC_ADDR (R93): `W{BITS, A, [byte(addr_q << (8 - A))], acs=0, dcs=0}`. -/
def reqAddr (p : Profile) (addr : Nat) : Request := .write .bits p.addrBits [addrByte p addr] false false

/-- ENC_DATA (R94): `W{BYTES, 2, [data_q[7:0], data_q[15:8]], acs=0, dcs=1}`. -/
def reqData (d : Word) : Request := .write .bytes 2 [lowByte d, highByte d] false true

/-- ENC_DUMMY (R95): `W{BITS, 1, [0x00], acs=0, dcs=0}`. -/
def reqDummy : Request := .write .bits 1 [0x00] false false

/-- ENC_STROBE_ON (R96): `W{BITS, 0, [], acs=1, dcs=0}`. -/
def reqStrobeOn : Request := .write .bits 0 [] true false

/-- ENC_STROBE_OFF (R97): `W{BITS, 0, [], acs=0, dcs=1}`. -/
def reqStrobeOff : Request := .write .bits 0 [] false true

/-- DEC_READ (R98): `R{2, dcs=1}`. -/
def reqRead : Request := .read 2 true

/-- The request of each sequencer state (the table of R81); none in IDLE. -/
def State.request? (s : State) : Option Request :=
  match s.st with
  | .idle => none
  | .wEwen => some (reqEwen s.cfg.profile)
  | .wOp => some reqWriteOp
  | .wAddr => some (reqAddr s.cfg.profile s.addrQ.toNat)
  | .wData => some (reqData s.dataQ)
  | .wStrbOn => some reqStrobeOn
  | .wSettle => some (.delay s.cfg.tSettle)
  | .wStrbOff => some reqStrobeOff
  | .wEwds => some (reqEwds s.cfg.profile)
  | .rOp => some reqReadOp
  | .rAddr => some (reqAddr s.cfg.profile s.addrQ.toNat)
  | .rDummy => some reqDummy
  | .rData => some reqRead

/-! ## The primitives, each with the sequencer's move after it -/

/-- Issue a request whose answer matters only as a status, then `st <-` the next state. -/
def issueThenAdvance (req : Request) (s : State) : State := issue req (fun _ t => advance t) s

/-- W_EWEN (R116). -/
def encEwen (p : Profile) (s : State) : State := issueThenAdvance (reqEwen p) s

/-- W_EWDS (R123), which completes WRITE_WORD: the response carries no data (R124). The device of R59, if one stands
behind the transport, now holds the word or nothing (log 22). -/
def encEwds (p : Profile) (s : State) : State := issue (reqEwds p) (fun _ t => complete none (settleWrite t)) s

/-- W_OP (R117). -/
def encWriteOp (s : State) : State := issueThenAdvance reqWriteOp s

/-- R_OP (R126). -/
def encReadOp (s : State) : State := issueThenAdvance reqReadOp s

/-- W_ADDR and R_ADDR (R118, R127). -/
def encAddr (p : Profile) (addr : Nat) (s : State) : State := issueThenAdvance (reqAddr p addr) s

/-- W_DATA (R119). -/
def encData (d : Word) (s : State) : State := issueThenAdvance (reqData d) s

/-- R_DUMMY (R128). -/
def encDummy (s : State) : State := issueThenAdvance reqDummy s

/-- W_STRB_ON (R120). -/
def encStrobeOn (s : State) : State := issueThenAdvance reqStrobeOn s

/-- W_STRB_OFF (R120). -/
def encStrobeOff (s : State) : State := issueThenAdvance reqStrobeOff s

/-- `rx_q` and `nx_q` take what a read returned (R98), and the response carries the reassembled Word (R99, R130),
whatever the status: the host trusts it only when the response's status is SUCCESS (R170, log 23). -/
def takeWord (rx : BytePair) (nXfer : Nat) (s : State) : State :=
  complete (some (wordAssemble rx)) { s with rxQ := rx, nxQ := nXfer }

/-- R_DATA (R98, R129), which completes READ_WORD: `rx_q` and `nx_q` take what the transport returned, whatever the
status and `n_xfer`, and the response carries the reassembled Word (R130), which the host trusts only when its status is
SUCCESS (R170, log 23). -/
def decRead (s : State) : State :=
  issue reqRead (fun ans t => takeWord (pairOf (s.received ans 2)) ans.nXfer t) s

end Sys2Proof.Machine
end

