-- ==== Sys2Proof/Machine/WireFrames.lean ====
section
/-! DEFINITION. The meanings of the command words (opcode table rows EWEN, EWDS, WRITE and READ of each profile). A
command word is what the block emits while the sequencer is in the states of its frame: one request a step (00_scope.md
R13, 40_codec.md R87, log 8). -/

namespace Sys2Proof.Machine

/-- What every command word's meaning shares: a faulted block stays as it is (60_exceptions.md R141, log 11), and a
session emits the command words of its own profile only (30_encoding.md R86, log 9). -/
def asFrameOf (p : Profile) (run : State → Host.Outcome State Fault Refusal) (s : State) :
    Host.Outcome State Fault Refusal :=
  if s.faulted then .next s
  else if s.cfg.profile = p then run s
  else .refused (.otherProfile p s.cfg.profile)

/-- EWEN in W_EWEN (R89, R116). -/
def runEwen (p : Profile) (s : State) : Host.Outcome State Fault Refusal :=
  match s.st with
  | .wEwen => .next (encEwen p s)
  | other => .fault (.outOfSequence other)

/-- EWDS in W_EWDS (R90, R123). -/
def runEwds (p : Profile) (s : State) : Host.Outcome State Fault Refusal :=
  match s.st with
  | .wEwds => .next (encEwds p s)
  | other => .fault (.outOfSequence other)

/-- The WRITE frame: its opcode in W_OP, its address in W_ADDR, its data in W_DATA (R76, R117 to R119). -/
def runWrite (p : Profile) (addr : Nat) (d : Word) (s : State) : Host.Outcome State Fault Refusal :=
  match s.st with
  | .wOp => .next (encWriteOp s)
  | .wAddr => .next (encAddr p addr s)
  | .wData => .next (encData d s)
  | other => .fault (.outOfSequence other)

/-- The READ frame: its opcode in R_OP, its address in R_ADDR, its dummy bit in R_DUMMY, and the two bytes in R_DATA
(R78, R126 to R129). -/
def runRead (p : Profile) (addr : Nat) (s : State) : Host.Outcome State Fault Refusal :=
  match s.st with
  | .rOp => .next (encReadOp s)
  | .rAddr => .next (encAddr p addr s)
  | .rDummy => .next (encDummy s)
  | .rData => .next (decRead s)
  | other => .fault (.outOfSequence other)

/-- EWEN.P6. -/
def execEwenP6 (s : State) : Host.Outcome State Fault Refusal := asFrameOf .p6 (runEwen .p6) s

/-- EWDS.P6. -/
def execEwdsP6 (s : State) : Host.Outcome State Fault Refusal := asFrameOf .p6 (runEwds .p6) s

/-- WRITE.P6. -/
def execWriteP6 (a : BitVec 6) (d : Word) (s : State) : Host.Outcome State Fault Refusal :=
  asFrameOf .p6 (runWrite .p6 a.toNat d) s

/-- READ.P6. -/
def execReadP6 (a : BitVec 6) (s : State) : Host.Outcome State Fault Refusal := asFrameOf .p6 (runRead .p6 a.toNat) s

/-- EWEN.P7. -/
def execEwenP7 (s : State) : Host.Outcome State Fault Refusal := asFrameOf .p7 (runEwen .p7) s

/-- EWDS.P7. -/
def execEwdsP7 (s : State) : Host.Outcome State Fault Refusal := asFrameOf .p7 (runEwds .p7) s

/-- WRITE.P7. -/
def execWriteP7 (a : BitVec 7) (d : Word) (s : State) : Host.Outcome State Fault Refusal :=
  asFrameOf .p7 (runWrite .p7 a.toNat d) s

/-- READ.P7. -/
def execReadP7 (a : BitVec 7) (s : State) : Host.Outcome State Fault Refusal := asFrameOf .p7 (runRead .p7 a.toNat) s

/-- EWEN.P8. -/
def execEwenP8 (s : State) : Host.Outcome State Fault Refusal := asFrameOf .p8 (runEwen .p8) s

/-- EWDS.P8. -/
def execEwdsP8 (s : State) : Host.Outcome State Fault Refusal := asFrameOf .p8 (runEwds .p8) s

/-- WRITE.P8. -/
def execWriteP8 (a : BitVec 8) (d : Word) (s : State) : Host.Outcome State Fault Refusal :=
  asFrameOf .p8 (runWrite .p8 a.toNat d) s

/-- READ.P8. -/
def execReadP8 (a : BitVec 8) (s : State) : Host.Outcome State Fault Refusal := asFrameOf .p8 (runRead .p8 a.toNat) s

end Sys2Proof.Machine
end

