-- ==== Sys2Proof/Machine/Dispatch.lean ====
section
/-! DEFINITION. What each instruction does: one arm per row of the opcode table. -/

namespace Sys2Proof.Machine

def exec (i : Instr) (s : State) : Host.Outcome State Fault Refusal :=
  match i with
  | .ewenP6 => Sys2Proof.Machine.execEwenP6 s
  | .ewdsP6 => Sys2Proof.Machine.execEwdsP6 s
  | .writeP6 a d => Sys2Proof.Machine.execWriteP6 a d s
  | .readP6 a => Sys2Proof.Machine.execReadP6 a s
  | .ewenP7 => Sys2Proof.Machine.execEwenP7 s
  | .ewdsP7 => Sys2Proof.Machine.execEwdsP7 s
  | .writeP7 a d => Sys2Proof.Machine.execWriteP7 a d s
  | .readP7 a => Sys2Proof.Machine.execReadP7 a s
  | .ewenP8 => Sys2Proof.Machine.execEwenP8 s
  | .ewdsP8 => Sys2Proof.Machine.execEwdsP8 s
  | .writeP8 a d => Sys2Proof.Machine.execWriteP8 a d s
  | .readP8 a => Sys2Proof.Machine.execReadP8 a s
  | .writeWord addr data => Sys2Proof.Machine.execWriteWord addr data s
  | .readWord addr => Sys2Proof.Machine.execReadWord addr s

end Sys2Proof.Machine
end

