-- ==== Sys2Proof/Machine/Sequencer.lean ====
section
/-! DEFINITION. What the machine does next (41_sequencer.md R134): `st` is the block's analogue of a program counter
(10_state.md R29), and it selects the instruction the sequencer runs; in IDLE the instruction is the host's next
command. -/

namespace Sys2Proof.Machine

/-- The activity of the next step: none while a fault has stopped the block (60_exceptions.md R141) or no command is
presented in IDLE (70_reset_and_hazards.md R153); otherwise the presented command (10_state.md R22), the command word
of the frame `st` is in (30_encoding.md R81), or a step of the strobe frame (R77). -/
def fetch (s : State) : Activity :=
  if s.faulted then .wait
  else match s.st with
    | .idle =>
      match s.cmds with
      | [] => .wait
      | r :: _ => .run (decodeHost r)
    | .wEwen => .run (Instr.ewenOf s.cfg.profile)
    | .wOp => .run (Instr.writeOf s.cfg.profile s.addrQ.toNat s.dataQ)
    | .wAddr => .run (Instr.writeOf s.cfg.profile s.addrQ.toNat s.dataQ)
    | .wData => .run (Instr.writeOf s.cfg.profile s.addrQ.toNat s.dataQ)
    | .wStrbOn => .strobeOn
    | .wSettle => .settle
    | .wStrbOff => .strobeOff
    | .wEwds => .run (Instr.ewdsOf s.cfg.profile)
    | .rOp => .run (Instr.readOf s.cfg.profile s.addrQ.toNat)
    | .rAddr => .run (Instr.readOf s.cfg.profile s.addrQ.toNat)
    | .rDummy => .run (Instr.readOf s.cfg.profile s.addrQ.toNat)
    | .rData => .run (Instr.readOf s.cfg.profile s.addrQ.toNat)

/-- In IDLE the presented command leaves the host's list in the step that presents it (R22, R111). -/
def State.taken (s : State) : State :=
  match s.st with
  | .idle => { s with cmds := s.cmds.tail }
  | _ => s

/-- Place an instruction so that the next step runs it first: a command word by its frame's first sequencer state, its
profile and its operands in the registers the step reads; a host command as the next record on the command port in
IDLE. The block is left without a fault, which would stop it (log 15). -/
def State.placed (i : Instr) (record : BitVec 33) (s : State) : State :=
  let w (p : Profile) (st : Seq) : State := { s with
    cfg := { s.cfg with profile := p }, st := st, opQ := .writeWord, fault := [] }
  let r (p : Profile) (a : BitVec 8) : State := { s with
    cfg := { s.cfg with profile := p }, st := .rOp, opQ := .readWord, addrQ := a, fault := [] }
  match i with
  | .ewenP6 => w .p6 .wEwen
  | .ewdsP6 => w .p6 .wEwds
  | .writeP6 a d => { w .p6 .wOp with addrQ := a.setWidth 8, dataQ := d }
  | .readP6 a => r .p6 (a.setWidth 8)
  | .ewenP7 => w .p7 .wEwen
  | .ewdsP7 => w .p7 .wEwds
  | .writeP7 a d => { w .p7 .wOp with addrQ := a.setWidth 8, dataQ := d }
  | .readP7 a => r .p7 (a.setWidth 8)
  | .ewenP8 => w .p8 .wEwen
  | .ewdsP8 => w .p8 .wEwds
  | .writeP8 a d => { w .p8 .wOp with addrQ := a, dataQ := d }
  | .readP8 a => r .p8 a
  | .writeWord _ _ => { s with st := .idle, cmds := record :: s.cmds, fault := [] }
  | .readWord _ => { s with st := .idle, cmds := record :: s.cmds, fault := [] }

end Sys2Proof.Machine
end

