-- ==== Sys2Proof/Machine/Step.lean ====
section
/-! DEFINITION. One step of the block (00_scope.md R13, 41_sequencer.md R134): one completed transport interaction,
one settle interval, or one acceptance. -/

namespace Sys2Proof.Machine

/-- The step. A block with nothing to do, or waiting for an answer, stays as it is (log 11, 12). -/
def step (s : State) : Host.Outcome State Fault Refusal :=
  match fetch s with
  | .wait => .next s
  | .run i => exec i s.taken
  | .strobeOn => .next (encStrobeOn s)
  | .settle => .next (settleDelay s)
  | .strobeOff => .next (encStrobeOff s)

/-- `s` with the instruction whose table bits are `w` placed where `step` fetches next; `s` itself where the decoder
refuses `w`. -/
def State.withFetchWord (s : State) (nbits w : Nat) : State :=
  match decodeTableWord nbits w with
  | some i => s.placed i (BitVec.ofNat 33 w)
  | none => s

end Sys2Proof.Machine
end

