-- ==== Sys2Proof/Safety.lean ====
section
/-! DEFINITION. What counts as a safe state of the block, in the terms the claims use: the framing contract
(40_codec.md R104, R110), the registers' ranges (10_state.md R30, R34), the handshakes (10_state.md R23), the
reference store's form; and the frames a trace puts on the wire (00_scope.md R13). -/

namespace Sys2Proof.Machine

/-- The CS view with which each sequencer state begins (the table of R110). -/
def Seq.csOnEntry : Seq → CsView
  | .idle => .deasserted
  | .wEwen => .deasserted
  | .wOp => .deasserted
  | .wAddr => .asserted
  | .wData => .asserted
  | .wStrbOn => .deasserted
  | .wSettle => .asserted
  | .wStrbOff => .asserted
  | .wEwds => .deasserted
  | .rOp => .deasserted
  | .rAddr => .asserted
  | .rDummy => .asserted
  | .rData => .asserted

/-- The operation whose sequence a busy state belongs to (R29); none in IDLE. -/
def Seq.op? : Seq → Option HostOp
  | .idle => none
  | .wEwen => some .writeWord
  | .wOp => some .writeWord
  | .wAddr => some .writeWord
  | .wData => some .writeWord
  | .wStrbOn => some .writeWord
  | .wSettle => some .writeWord
  | .wStrbOff => some .writeWord
  | .wEwds => some .writeWord
  | .rOp => some .readWord
  | .rAddr => some .readWord
  | .rDummy => some .readWord
  | .rData => some .readWord

/-- The CS view is the one the framing contract has on entry to the sequencer state (R104, R110). -/
abbrev State.csFramed (s : State) : Prop := s.cs = s.st.csOnEntry

/-- `addr_q < 2^A` (R30). -/
abbrev State.addrInRange (s : State) : Prop := s.addrQ.toNat < 2 ^ s.cfg.profile.addrBits

/-- `op_q` is the operation whose sequence runs (R30, R112). -/
abbrev State.opMatches (s : State) : Prop := s.st.op? = none ∨ s.st.op? = some s.opQ

/-- `first_fail` never holds SUCCESS (R34). -/
abbrev State.failureIsFailure (s : State) : Prop := s.firstFail ≠ some .success

/-- One response per accepted command, the one being served excepted (R23). -/
abbrev State.answeredAll (s : State) : Prop :=
  s.responses.length + (if s.st = .idle then 0 else 1) = s.accepted

/-- The reference store's addresses rise strictly. -/
abbrev State.memCanonical (s : State) : Prop := Memory.wf s.mem = true

/-- Every stored byte belongs to one of the `2^A` words of the address space (20_memory.md R45). -/
abbrev State.memInSpace (s : State) : Prop := ∀ c ∈ s.mem, c.1 < 2 * 2 ^ s.cfg.profile.addrBits

/-- No F_CS_FRAME has been raised (R110: it "is unreachable from every command the sequencer accepts"). -/
abbrev State.noCsFault (s : State) : Prop := ∀ r c, BlockFault.csFrame r c ∉ s.fault

/-- The invariant of the block. -/
structure State.Inv (s : State) : Prop where
  csFramed : s.csFramed
  addrInRange : s.addrInRange
  opMatches : s.opMatches
  failureIsFailure : s.failureIsFailure
  answeredAll : s.answeredAll
  memCanonical : s.memCanonical
  memInSpace : s.memInSpace
  noCsFault : s.noCsFault

/-- A trace cut into frames (R13), each "from one CS assertion to the next CS deassertion", as the bits driven in it:
the bits before the first assertion, and then the frames in order. -/
def cutFrames : List TraceEntry → List Bool × List (List Bool)
  | [] => ([], [])
  | e :: rest =>
    if e.req.acs then ([], (e.req.wireBits ++ (cutFrames rest).1) :: (cutFrames rest).2)
    else (e.req.wireBits ++ (cutFrames rest).1, (cutFrames rest).2)

/-- The frames of a trace, as driven bits. -/
def frames (trace : List TraceEntry) : List (List Bool) := (cutFrames trace).2

/-- Every bit a trace drives on the wire. -/
def wireBits (trace : List TraceEntry) : List Bool := trace.flatMap (fun e => e.req.wireBits)

/-- The first status that is not SUCCESS, or SUCCESS if there is none: what FIRST_FAILURE returns for a transaction
whose calls were answered so (R131). -/
def firstFailureOf : List Status → Status
  | [] => .success
  | x :: rest => if x = .success then firstFailureOf rest else x

end Sys2Proof.Machine
end

