-- ==== Sys2Proof/Certificates/Slice0/Obligations.lean ====
section
/-! DEFINITION. The statements for the provers, each from numbered rules of spec/. The helpers under
`Sys2Proof.Statements` spell the rules out again, apart from the definitions the machine is made of. -/

namespace Sys2Proof.Statements

open Sys2Proof.Machine

/-- Rule R88's effect on everything but the CS view: the trace line, `last_status`, and `first_fail` if the status is
the transaction's first failure. The answer leaves the response port, and the draw counter (log 3) moves on. -/
def afterIssue (s : State) (ans : TxAnswer) (line : TraceEntry) : State :=
  { s with
    trace := s.trace ++ [line]
    lastStatus := ans.status
    firstFail := if ans.status ≠ .success ∧ s.firstFail = none then some ans.status else s.firstFail
    txIn := s.txIn.tail
    draws := s.draws + 1 }

/-- Rule R131, from the registers. -/
def resultOf (s : State) : Status :=
  match s.cfg.statusPolicy with
  | .last => s.lastStatus
  | .firstFailure =>
    match s.firstFail with
    | none => .success
    | some f => f

/-- Rules R124 and R130: deliver the response and return to IDLE. -/
def responded (data : Option Word) (s : State) : State :=
  { s with responses := s.responses ++ [⟨resultOf s, data⟩], st := .idle }

/-- The conditions of one codec step: no fault, the session's profile, the sequencer state, the CS view the framing
contract asks for, and an answer from the transport. -/
def ReadyAt (s : State) (p : Profile) (st : Seq) (cs : CsView) (ans : TxAnswer) : Prop :=
  s.fault = [] ∧ s.cfg.profile = p ∧ s.st = st ∧ s.cs = cs ∧ s.answer? = some ans

/-- The exception of a primitive (R106, R107, R141): with the CS view against the framing contract, F_CS_FRAME records
the request and the view, and nothing else changes: the request is not issued. -/
def FaultsOn (i : Instr) (p : Profile) (st : Seq) (cs : CsView) (req : Request) : Prop :=
  ∀ s : State, s.fault = [] → s.cfg.profile = p → s.st = st → s.cs = cs →
    exec i s = .next { s with fault := [.csFrame req cs] }

/-- EWEN (R89, R116): one request, the whole `C`-bit word, CS asserted before and deasserted after. -/
def EwenEmits (i : Instr) (p : Profile) (c : Nat) : Prop :=
  (Request.write .bits c [0x9F, 0xFF] true true).wireBits = [true, false, false, true, true] ++ List.replicate (c - 5) true ∧
  (∀ s ans, ReadyAt s p .wEwen .deasserted ans →
    exec i s = .next { afterIssue s ans ⟨.write .bits c [0x9F, 0xFF] true true, .status ans.status⟩ with
      st := .wOp, cs := .deasserted }) ∧
  FaultsOn i p .wEwen .asserted (.write .bits c [0x9F, 0xFF] true true)

/-- EWDS (R90, R123, R124): one request, then the response without data, and IDLE. What a device outside the block holds
after it is not these rules' matter (`DeviceKeepsVisibleWrites` says it): the store is some `m`. -/
def EwdsEmits (i : Instr) (p : Profile) (c : Nat) : Prop :=
  (Request.write .bits c [0x80, 0x00] true true).wireBits = [true, false, false, false, false] ++ List.replicate (c - 5) false ∧
  (∀ s ans, ReadyAt s p .wEwds .deasserted ans →
    ∃ m, exec i s = .next (responded none
      { afterIssue s ans ⟨.write .bits c [0x80, 0x00] true true, .status ans.status⟩ with
        cs := .deasserted, mem := m })) ∧
  FaultsOn i p .wEwds .asserted (.write .bits c [0x80, 0x00] true true)

/-- A 3-bit opcode that opens a frame (R91, R92): CS is asserted before it and stays asserted. -/
def OpensFrame (i : Instr) (p : Profile) (st next : Seq) (byte : Byte) (bits : List Bool) : Prop :=
  (Request.write .bits 3 [byte] true false).wireBits = bits ∧
  (∀ s ans, ReadyAt s p st .deasserted ans →
    exec i s = .next { afterIssue s ans ⟨.write .bits 3 [byte] true false, .status ans.status⟩ with
      st := next, cs := .asserted }) ∧
  FaultsOn i p st .asserted (.write .bits 3 [byte] true false)

/-- The address field as a continuation (R93): left-justified in one byte, `A` bits of it sent, MSB first. -/
def SendsAddress (i : Instr) (p : Profile) (st next : Seq) (width a : Nat) : Prop :=
  ∀ req, req = Request.write .bits width [BitVec.ofNat 8 (a * 2 ^ (8 - width))] false false →
    req.wireBits = msbBits a width ∧
    (∀ s ans, ReadyAt s p st .asserted ans →
      exec i s = .next { afterIssue s ans ⟨req, .status ans.status⟩ with st := next }) ∧
    FaultsOn i p st .deasserted req

/-- The data of a WRITE frame (R94, R119): two bytes, low byte first, CS deasserted after. The reference device's
store is what its own function of the trace says (log 7). -/
def WriteSendsData (i : Instr) (p : Profile) (d : Word) : Prop :=
  ∀ req, req = Request.write .bytes 2 [BitVec.ofNat 8 (d.toNat % 256), BitVec.ofNat 8 (d.toNat / 256)] false true →
    req.wireBits = msbBits (d.toNat % 256) 8 ++ msbBits (d.toNat / 256) 8 ∧
    (∀ s ans, ReadyAt s p .wData .asserted ans →
      exec i s = .next { afterIssue s ans ⟨req, .status ans.status⟩ with
        st := .wStrbOn
        cs := .deasserted
        mem := if s.transport = .loopback then deviceStore p (s.trace ++ [⟨req, .status ans.status⟩]) req s.mem
          else s.mem }) ∧
    FaultsOn i p .wData .deasserted req

/-- The dummy bit (R95, R128): one bit, 0, as a continuation. -/
def SendsDummy (i : Instr) (p : Profile) : Prop :=
  (Request.write .bits 1 [0x00] false false).wireBits = [false] ∧
  (∀ s ans, ReadyAt s p .rDummy .asserted ans →
    exec i s = .next { afterIssue s ans ⟨.write .bits 1 [0x00] false false, .status ans.status⟩ with st := .rData }) ∧
  FaultsOn i p .rDummy .deasserted (.write .bits 1 [0x00] false false)

/-- The read that closes a READ frame (R98, R99, R129, R130): `rx_q` and `nx_q` take what the transport gave, whatever
the status, and the response carries `(b1 << 8) | b0`. -/
def ReadCompletes (i : Instr) (p : Profile) : Prop :=
  (∀ s ans, ReadyAt s p .rData .asserted ans → ∃ b0 b1 : Byte, s.received ans 2 = [b0, b1] ∧
    exec i s = .next (responded (some (b1.setWidth 16 <<< 8 ||| b0.setWidth 16))
      { afterIssue s ans ⟨.read 2 true, .read ans.status ans.nXfer [b0, b1]⟩ with
        cs := .deasserted, rxQ := ⟨b0, b1⟩, nxQ := ans.nXfer })) ∧
  FaultsOn i p .rData .deasserted (.read 2 true)

/-- The address the block takes (R113): in range, or under TRUNCATE any at all. -/
def Accepts (s : State) (addr : BitVec 16) : Prop :=
  addr.toNat < 2 ^ s.cfg.profile.addrBits ∨ s.cfg.addrPolicy = .truncate

/-- The address latched for an accepted one (R113): the address itself in range, and otherwise modulo `2^A`. -/
def latched (s : State) (addr : BitVec 16) : Nat := addr.toNat % 2 ^ s.cfg.profile.addrBits

/-- What a session's transaction returns for the statuses its calls were answered with, in order (R131). -/
def transactionStatus (policy : StatusPolicy) (statuses : List Status) : Status :=
  match policy with
  | .last => statuses.getLastD .success
  | .firstFailure => firstFailureOf statuses

/-- The host presents `r` next, at a transaction boundary with nothing wrong. -/
def Presents (s : State) (r : BitVec 33) (rest : List (BitVec 33)) : Prop :=
  s.st = .idle ∧ s.fault = [] ∧ s.cs = .deasserted ∧ s.cmds = r :: rest

/-- The surroundings do not keep the block waiting for ever (R169). -/
def Fair (s : State) : Prop := s.transport ≠ .silent ∧ s.settleEnds = true

end Sys2Proof.Statements

open Sys2Proof Sys2Proof.Machine Sys2Proof.Statements

/-! ## Encodings -/

/-- Words of every family and profile, from R70 to R73, R85 and the vectors of 95_test_vectors.md 2.1 and 2.2. How a
table word names its profile is the model's reading (log 18). -/
def Obligations.TableWordsDecode : Prop :=
  decodeTableWord 16 0x13F = some .ewenP6 ∧ decodeTableWord 16 0x100 = some .ewdsP6 ∧
  decodeTableWord 16 0x16A = some (.writeP6 42 0) ∧ decodeTableWord 16 0x1AA = some (.readP6 42) ∧
  decodeTableWord 16 0x27F = some .ewenP7 ∧ decodeTableWord 16 0x200 = some .ewdsP7 ∧
  decodeTableWord 16 0x2D5 = some (.writeP7 85 0) ∧ decodeTableWord 16 0x355 = some (.readP7 85) ∧
  decodeTableWord 16 0x4FF = some .ewenP8 ∧ decodeTableWord 16 0x400 = some .ewdsP8 ∧
  decodeTableWord 16 0x55A = some (.writeP8 0x5A 0) ∧ decodeTableWord 16 0x65A = some (.readP8 0x5A) ∧
  decodeTableWord 40 0x0000000D0 = some (.writeWord 0 0xD0) ∧
  decodeTableWord 40 0x000FF1234 = some (.writeWord 0xFF 0x1234) ∧
  decodeTableWord 40 0x100FF0000 = some (.readWord 0xFF)

/-- Every instruction, with every operand value, at its own level (R64, R70 to R78, R85). -/
def Obligations.DecodeOfEncodeIsTheInstruction : Prop := ∀ i : Instr, decode (encode i) = .ok i

/-- The frame decoder accepts nothing but the frames the block emits (R83, R86). -/
def Obligations.DecodedFrameIsTheEncodedOne : Prop :=
  ∀ (p : Profile) (bits : List Bool) (i : Instr), decodeFrame p bits = .ok i → encode i = .frame p bits

/-- R70 to R73: EWEN `100` then ones, EWDS `100` then zeros, WRITE `(0b101 << A) | addr`, READ `(0b110 << A) | addr`,
each the number of its instruction and decoded from that number; and how each travels: EWEN and EWDS in one request
that asserts CS and releases it, WRITE and READ as an opcode immediately followed by the address, with no release
between. How the table-word decoder picks the profile is the model's reading (log 18). -/
def Obligations.CommandWordValues : Prop :=
  ∀ (p : Profile) (a : Nat) (d : Word), a < 2 ^ p.addrBits →
    ((Instr.ewenOf p).tableWord = (4 <<< p.addrBits) + (2 ^ p.addrBits - 1) ∧
      decodeTableWord 16 ((4 <<< p.addrBits) + (2 ^ p.addrBits - 1)) = some (Instr.ewenOf p) ∧
      (reqEwen p).wireBits = msbBits ((4 <<< p.addrBits) + (2 ^ p.addrBits - 1)) p.cmdBits ∧
      (reqEwen p).acs = true ∧ (reqEwen p).dcs = true) ∧
    ((Instr.ewdsOf p).tableWord = 4 <<< p.addrBits ∧
      decodeTableWord 16 (4 <<< p.addrBits) = some (Instr.ewdsOf p) ∧
      (reqEwds p).wireBits = msbBits (4 <<< p.addrBits) p.cmdBits ∧
      (reqEwds p).acs = true ∧ (reqEwds p).dcs = true) ∧
    ((Instr.writeOf p a d).tableWord = (5 <<< p.addrBits) ||| a ∧
      decodeTableWord 16 ((5 <<< p.addrBits) ||| a) = some (Instr.writeOf p a 0) ∧
      reqWriteOp.wireBits ++ (reqAddr p a).wireBits = msbBits ((5 <<< p.addrBits) ||| a) p.cmdBits ∧
      reqWriteOp.acs = true ∧ reqWriteOp.dcs = false ∧ (reqAddr p a).acs = false ∧ (reqAddr p a).dcs = false) ∧
    ((Instr.readOf p a).tableWord = (6 <<< p.addrBits) ||| a ∧
      decodeTableWord 16 ((6 <<< p.addrBits) ||| a) = some (Instr.readOf p a) ∧
      reqReadOp.wireBits ++ (reqAddr p a).wireBits = msbBits ((6 <<< p.addrBits) ||| a) p.cmdBits ∧
      reqReadOp.acs = true ∧ reqReadOp.dcs = false)

/-- The patterns (a) to (e) of R86, each refused by its own name. -/
def Obligations.NeverEmittedPatternsAreRefused : Prop :=
  ∀ (p : Profile) (f : List Bool),
    decodeFrame p (false :: f) = .error .noStartBit ∧
    decodeFrame p (true :: true :: true :: f) = .error .opcode111 ∧
    (f.length + 2 = p.addrBits →
      decodeFrame p (true :: false :: false :: false :: true :: f) = .error .enableFieldMixed ∧
      decodeFrame p (true :: false :: false :: true :: false :: f) = .error .enableFieldMixed ∧
      (f ≠ List.replicate (p.addrBits - 2) true →
        decodeFrame p (true :: false :: false :: true :: true :: f) = .error .enableNotAllOnes) ∧
      (f ≠ List.replicate (p.addrBits - 2) false →
        decodeFrame p (true :: false :: false :: false :: false :: f) = .error .disableNotAllZeros))

/-- The packed record (R85): where the fields stand, that every 33-bit value is one, that each decodes to the command
`cmd_op` names, and that READ_WORD ignores bits 15:0. -/
def Obligations.HostRecordsAllDecode : Prop :=
  (∀ (op : BitVec 1) (addr data : BitVec 16),
    (encodeHost op addr data).toNat = op.toNat * 2 ^ 32 + addr.toNat * 2 ^ 16 + data.toNat ∧
    decodeHost (encodeHost op addr data) = if op = 0 then .writeWord addr data else .readWord addr) ∧
  (∀ r : BitVec 33, ∃ op addr data, r = encodeHost op addr data)

/-- The address byte (R74, R100): `byte(addr << (8-A))`; for an address in range it is the address times `2^(8-A)`
with no wrap, and its shift back is the address; the request sends its first `A` bits, which are the address MSB
first, and its other bits are 0. -/
def Obligations.AddressByteIsLeftJustified : Prop :=
  (∀ (p : Profile) (a : Nat), (addrByte p a).toNat = (a <<< (8 - p.addrBits)) % 256 ∧
    reqAddr p a = .write .bits p.addrBits [addrByte p a] false false ∧
    (addrByte p a).toNat % 2 ^ (8 - p.addrBits) = 0) ∧
  (∀ (p : Profile) (a : Nat), a < 2 ^ p.addrBits →
    (addrByte p a).toNat = a * 2 ^ (8 - p.addrBits) ∧
    (addrByte p a).toNat >>> (8 - p.addrBits) = a ∧
    (reqAddr p a).wireBits = msbBits a p.addrBits)

/-- The data split and reassembly (R99, R101, R102): values, and that each undoes the other (R50). -/
def Obligations.WordSplitAndAssembleRoundTrip : Prop :=
  (∀ d : Word, (wordSplit d).b0.toNat = d.toNat % 256 ∧ (wordSplit d).b1.toNat = d.toNat / 256 ∧
    wordAssemble (wordSplit d) = d) ∧
  (∀ p : BytePair, (wordAssemble p).toNat = 256 * p.b1.toNat + p.b0.toNat ∧ wordSplit (wordAssemble p) = p)

/-- The wire bits of every primitive's request (R89 to R97; R82: no filler bit is among them). -/
def Obligations.RequestsDriveTheirWireBits : Prop :=
  ∀ (p : Profile) (a : Nat) (d : Word), a < 2 ^ p.addrBits →
    (reqEwen p).wireBits = [true, false, false, true, true] ++ List.replicate (p.addrBits - 2) true ∧
    (reqEwds p).wireBits = [true, false, false, false, false] ++ List.replicate (p.addrBits - 2) false ∧
    reqWriteOp.wireBits = [true, false, true] ∧
    reqReadOp.wireBits = [true, true, false] ∧
    (reqAddr p a).wireBits = msbBits a p.addrBits ∧
    (reqData d).wireBits = msbBits (d.toNat % 256) 8 ++ msbBits (d.toNat / 256) 8 ∧
    reqDummy.wireBits = [false] ∧
    reqStrobeOn.wireBits = [] ∧
    reqStrobeOff.wireBits = []

/-- R66: the well-formed write records, and that "The block only issues well-formed records": every line a step adds
to the trace holds one. -/
def Obligations.IssuedRequestsAreWellFormed : Prop :=
  (∀ (len : Nat) (buf : List Byte) (acs dcs : Bool),
    ((Request.write .bits len buf acs dcs).wf = true ↔ len ≤ 8 * buf.length) ∧
    ((Request.write .bytes len buf acs dcs).wf = true ↔ len ≤ buf.length)) ∧
  (∀ (s t : State), step s = .next t → ∀ e ∈ t.trace, e ∈ s.trace ∨ e.req.wf = true)

/-- The bits of a read (R25, R47): `8n` bits clocked in are `n` bytes, bit `j` of the wire's `k`-th eight being bit
`7 - j` of byte `k`, and nothing is lost; `rx` has the requested length (R21), holds the bytes the answer lists, and is
clocked in from the data line where it lists none (log 3); and every line a step adds to the trace clocked in `8n`
bits. -/
def Obligations.ReadBitsFillBytesMsbFirst : Prop :=
  (∀ (n : Nat) (bits : List Bool), bits.length = 8 * n →
    (clockIn n bits).length = n ∧ bufferBits (clockIn n bits) = bits ∧
    ∀ k j, k < n → j < 8 → (clockIn n bits)[k]?.map (fun b => b.getLsbD (7 - j)) = bits[8 * k + j]?) ∧
  (∀ (s : State) (ans : TxAnswer) (n : Nat), (s.received ans n).length = n ∧
    (∀ k, k < n → k < ans.rx.length → (s.received ans n)[k]? = ans.rx[k]?) ∧
    (ans.rx = [] → s.received ans n = clockIn n (s.lineBits ans n) ∧ (s.lineBits ans n).length = 8 * n)) ∧
  (∀ (s t : State), step s = .next t → ∀ e ∈ t.trace, e ∈ s.trace ∨ e.reply.bitsIn.length = e.req.readBits)

/-! ## Configuration and reset -/

/-- R6, R17: exactly the pairs (6,9), (7,10) and (8,11) configure a session. -/
def Obligations.OnlyLegalProfilesConfigure : Prop :=
  ∀ (d : DeviceProfile) (p : Profile), d.configure = some p ↔
    d.addressBits = p.addrBits ∧ d.commandBits = p.addrBits + 3

/-- R153: the values the rule gives, in any configuration, and that the block then waits in IDLE for a command. The
registers R153 leaves unspecified are not spoken of. That the wait is a step to a state in IDLE, and that no command is
presented after reset, are the model's (log 12, DEDUCED; log 15, DESIGN CHOICE). -/
def Obligations.ResetWaitsInIdle : Prop :=
  (∀ c : SessionConfig, (State.resetWith c).st = .idle ∧ (State.resetWith c).cs = .deasserted ∧
    (State.resetWith c).fault = [] ∧ (State.resetWith c).firstFail = none ∧
    (State.resetWith c).cmdReady = true ∧
    (∃ t, step (State.resetWith c) = .next t ∧ t.st = .idle ∧ t.cmdReady = true ∧ t.trace = [] ∧ t.responses = [])) ∧
  State.reset = State.resetWith SessionConfig.standard

/-- The invariant holds after reset, in any configuration. It takes in the model's choice 0 for `addr_q` (log 2). -/
def Obligations.ResetMeetsTheInvariant : Prop :=
  (∀ c : SessionConfig, (State.resetWith c).Inv) ∧ State.reset.Inv

/-- R157: a reset in a transaction raises F_ABORTED with the state it stopped at; no response is delivered and no
request issued. That the reference store is forgotten is the model's reading of the rule's "draws" (log 14). -/
def Obligations.ResetWhileBusyAborts : Prop :=
  ∀ s : State, s.st ≠ .idle → s.fault = [] →
    s.hostReset = { s with fault := [.aborted s.st], mem := [] } ∧ s.hostReset.cmdReady = false ∧
    s.hostReset.complete = false

/-- R153, R156: a reset at a boundary, or after a fault, begins a session with no fault, ready for a command. That it
goes on in the configuration it had, and that the device keeps its contents at a boundary if its profile is the
session's and otherwise holds nothing, are the model's choice (log 14, 24). -/
def Obligations.ResetRecovers : Prop :=
  ∀ s : State, s.st = .idle ∨ s.fault ≠ [] →
    s.hostReset.fault = [] ∧ s.hostReset.st = .idle ∧ s.hostReset.cs = .deasserted ∧ s.hostReset.firstFail = none ∧
    s.hostReset.cmdReady = true ∧ s.hostReset.cfg = s.cfg ∧
    (s.st = .idle → s.cfg.profile = s.deviceProfile → s.hostReset.mem = s.mem) ∧
    (s.st ≠ .idle ∨ s.cfg.profile ≠ s.deviceProfile → s.hostReset.mem = [])

/-! ## Host commands -/

/-- R111, R113, R114: in IDLE with no fault a command whose address is in range, or any under TRUNCATE, is accepted, in
one step that issues no request; READ_WORD leaves `data_q`. The next state is given whole, so everything it does not
name is unchanged; the count of accepted commands is the model's own field (log 16). While `st ≠ IDLE` no command is
accepted. -/
def Obligations.HostCommandsAreAccepted : Prop :=
  ∀ (s : State) (addr : BitVec 16) (data : Word),
    (s.st = .idle → s.fault = [] → Accepts s addr →
      exec (.writeWord addr data) s = .next { s with
        opQ := .writeWord, addrQ := BitVec.ofNat 8 (latched s addr), dataQ := data, firstFail := none, st := .wEwen,
        accepted := s.accepted + 1 } ∧
      exec (.readWord addr) s = .next { s with
        opQ := .readWord, addrQ := BitVec.ofNat 8 (latched s addr), firstFail := none, st := .rOp,
        accepted := s.accepted + 1 }) ∧
    (s.st ≠ .idle → ∀ t, exec (.writeWord addr data) s = .next t ∨ exec (.readWord addr) s = .next t →
      t.st = s.st ∧ t.opQ = s.opQ ∧ t.addrQ = s.addrQ ∧ t.dataQ = s.dataQ ∧ t.accepted = s.accepted)

/-- R113, the address policy, before any request: an address below `2^A` is taken as it is; otherwise REFUSE raises
F_ADDR_RANGE with the address, issues no request and gives no response, and TRUNCATE takes it modulo `2^A`. That `st`
keeps its value when the fault is raised is the model's reading of R111's order (log 10, DEDUCED), and the count of
accepted commands is the model's own field (log 16, DESIGN CHOICE). -/
def Obligations.AddressPolicyIsApplied : Prop :=
  ∀ (s : State) (addr : BitVec 16) (data : Word) (i : Instr), s.st = .idle → s.fault = [] →
    i = .writeWord addr data ∨ i = .readWord addr →
    ∃ t, exec i s = .next t ∧ t.trace = s.trace ∧ t.responses = s.responses ∧
      (addr.toNat < 2 ^ s.cfg.profile.addrBits → t.addrQ.toNat = addr.toNat ∧ t.fault = [] ∧ t.st ≠ .idle) ∧
      (2 ^ s.cfg.profile.addrBits ≤ addr.toNat → s.cfg.addrPolicy = .truncate →
        t.addrQ.toNat = addr.toNat % 2 ^ s.cfg.profile.addrBits ∧ t.fault = [] ∧ t.st ≠ .idle) ∧
      (2 ^ s.cfg.profile.addrBits ≤ addr.toNat → s.cfg.addrPolicy = .refuse →
        t.fault = [.addrRange addr] ∧ t.st = .idle ∧ t.accepted = s.accepted)

/-- The whole state after F_ADDR_RANGE under REFUSE. That `op_q` is written first is the model's reading of R111's
order (log 10). -/
def Obligations.OutOfRangeAddressFaults : Prop :=
  ∀ (s : State) (addr : BitVec 16) (data : Word), s.st = .idle → s.fault = [] →
    2 ^ s.cfg.profile.addrBits ≤ addr.toNat → s.cfg.addrPolicy = .refuse →
    exec (.writeWord addr data) s = .next { s with opQ := .writeWord, fault := [.addrRange addr] } ∧
    exec (.readWord addr) s = .next { s with opQ := .readWord, fault := [.addrRange addr] }

/-- R37: when `cmd_ready` is 1; that while it is 0 nothing is accepted and the command stays presented; that the
completion of the response lifts the hold of a busy block; and that after a fault it stays 0 for the rest of the run.
That a held command leaves the state as it is, is the model's form of the hold (log 12). -/
def Obligations.CommandsHoldWhileNotReady : Prop :=
  (∀ s : State, s.cmdReady = true ↔ s.st = .idle ∧ s.fault = []) ∧
  (∀ (s : State) (addr : BitVec 16) (data : Word), s.cmdReady = false →
    exec (.writeWord addr data) s = .next s ∧ exec (.readWord addr) s = .next s ∧
    (∀ t, step s = .next t → t.cmds = s.cmds ∧ t.accepted = s.accepted ∧
      (t.cmdReady = true → t.responses.length = s.responses.length + 1))) ∧
  (∀ (n : Nat) (s t : State), s.fault ≠ [] → Host.Core.run Sys2Proof.core n s = .next t → t.cmdReady = false)

/-- The frame of the host commands, in every state: acceptance "issues no transport request" (R111), so it touches
neither the CS view, the trace, the statuses of calls, the read registers, the device, nor any response. That a fault
raised keeps `addr_q`, `data_q`, `first_fail` and `st` is the model's reading of R111's order (log 10, DEDUCED). -/
def Obligations.HostCommandsFrame : Prop :=
  ∀ (s t : State) (i : Instr), i.profile? = none → exec i s = .next t →
    t.cfg = s.cfg ∧ t.cs = s.cs ∧ t.rxQ = s.rxQ ∧ t.nxQ = s.nxQ ∧ t.lastStatus = s.lastStatus ∧
    t.cmds = s.cmds ∧ t.responses = s.responses ∧ t.trace = s.trace ∧ t.txIn = s.txIn ∧
    t.transport = s.transport ∧ t.settleEnds = s.settleEnds ∧ t.writeCycle = s.writeCycle ∧
    t.deviceProfile = s.deviceProfile ∧ t.draws = s.draws ∧
    (∀ a, memRead t.mem a = memRead s.mem a) ∧
    (∀ addr, i = .readWord addr → t.dataQ = s.dataQ) ∧
    (t.fault ≠ s.fault → t.addrQ = s.addrQ ∧ t.dataQ = s.dataQ ∧ t.firstFail = s.firstFail ∧ t.st = s.st)

/-! ## Command words -/

/-- EWEN.P6, EWEN.P7 and EWEN.P8 (R89, R116). -/
def Obligations.EwenRowsEmitTheirFrame : Prop :=
  EwenEmits .ewenP6 .p6 9 ∧ EwenEmits .ewenP7 .p7 10 ∧ EwenEmits .ewenP8 .p8 11

/-- EWDS.P6, EWDS.P7 and EWDS.P8 (R90, R123, R124). -/
def Obligations.EwdsRowsEmitTheirFrameAndRespond : Prop :=
  EwdsEmits .ewdsP6 .p6 9 ∧ EwdsEmits .ewdsP7 .p7 10 ∧ EwdsEmits .ewdsP8 .p8 11

/-- The opcodes: WRITE of each profile in W_OP, READ of each profile in R_OP (R91, R92, R117, R126). -/
def Obligations.OpcodesOpenTheirFrames : Prop :=
  (∀ (a : BitVec 6) (d : Word), OpensFrame (.writeP6 a d) .p6 .wOp .wAddr 0xA0 [true, false, true] ∧
    OpensFrame (.readP6 a) .p6 .rOp .rAddr 0xC0 [true, true, false]) ∧
  (∀ (a : BitVec 7) (d : Word), OpensFrame (.writeP7 a d) .p7 .wOp .wAddr 0xA0 [true, false, true] ∧
    OpensFrame (.readP7 a) .p7 .rOp .rAddr 0xC0 [true, true, false]) ∧
  (∀ (a : BitVec 8) (d : Word), OpensFrame (.writeP8 a d) .p8 .wOp .wAddr 0xA0 [true, false, true] ∧
    OpensFrame (.readP8 a) .p8 .rOp .rAddr 0xC0 [true, true, false])

/-- The address: WRITE of each profile in W_ADDR, READ of each profile in R_ADDR (R93, R118, R127). -/
def Obligations.AddressesContinueTheirFrames : Prop :=
  (∀ (a : BitVec 6) (d : Word), SendsAddress (.writeP6 a d) .p6 .wAddr .wData 6 a.toNat ∧
    SendsAddress (.readP6 a) .p6 .rAddr .rDummy 6 a.toNat) ∧
  (∀ (a : BitVec 7) (d : Word), SendsAddress (.writeP7 a d) .p7 .wAddr .wData 7 a.toNat ∧
    SendsAddress (.readP7 a) .p7 .rAddr .rDummy 7 a.toNat) ∧
  (∀ (a : BitVec 8) (d : Word), SendsAddress (.writeP8 a d) .p8 .wAddr .wData 8 a.toNat ∧
    SendsAddress (.readP8 a) .p8 .rAddr .rDummy 8 a.toNat)

/-- WRITE.P6, WRITE.P7 and WRITE.P8 in W_DATA (R94, R119). The clause on the store is the mock's of log 7. -/
def Obligations.WriteRowsSendData : Prop :=
  (∀ (a : BitVec 6) (d : Word), WriteSendsData (.writeP6 a d) .p6 d) ∧
  (∀ (a : BitVec 7) (d : Word), WriteSendsData (.writeP7 a d) .p7 d) ∧
  (∀ (a : BitVec 8) (d : Word), WriteSendsData (.writeP8 a d) .p8 d)

/-- READ.P6, READ.P7 and READ.P8 in R_DUMMY (R95, R128). -/
def Obligations.ReadRowsSendTheDummyBit : Prop :=
  (∀ a : BitVec 6, SendsDummy (.readP6 a) .p6) ∧
  (∀ a : BitVec 7, SendsDummy (.readP7 a) .p7) ∧
  (∀ a : BitVec 8, SendsDummy (.readP8 a) .p8)

/-- READ.P6, READ.P7 and READ.P8 in R_DATA (R98, R99, R129, R130). -/
def Obligations.ReadRowsCompleteWithTheWord : Prop :=
  (∀ a : BitVec 6, ReadCompletes (.readP6 a) .p6) ∧
  (∀ a : BitVec 7, ReadCompletes (.readP7 a) .p7) ∧
  (∀ a : BitVec 8, ReadCompletes (.readP8 a) .p8)

/-- The frame of the twelve command words, in every state. `rx_q` and `nx_q` change in R_DATA only, and a response comes
in W_EWDS and R_DATA only. A store changes in two places only (log 7, 22): with the mock, in W_DATA, and there only in
the two bytes of the word the mock's own function of the trace names; with the device of R59, in the W_EWDS that
completes a WRITE_WORD, and there only in the two bytes of the word at `addr_q`, or, if the write is not visible or
the device is not matched (log 24), by forgetting all. -/
def Obligations.CommandWordsFrame : Prop :=
  ∀ (s t : State) (i : Instr) (p : Profile), i.profile? = some p → exec i s = .next t →
    t.cfg = s.cfg ∧ t.opQ = s.opQ ∧ t.addrQ = s.addrQ ∧ t.dataQ = s.dataQ ∧ t.cmds = s.cmds ∧
    t.accepted = s.accepted ∧ t.transport = s.transport ∧ t.settleEnds = s.settleEnds ∧ t.writeCycle = s.writeCycle ∧
    t.deviceProfile = s.deviceProfile ∧
    (s.st ≠ .rData → t.rxQ = s.rxQ ∧ t.nxQ = s.nxQ) ∧
    (s.st ≠ .wEwds → s.st ≠ .rData → t.responses = s.responses) ∧
    ((s.st ≠ .wData ∨ s.transport ≠ .loopback) → (s.st ≠ .wEwds ∨ s.transport ≠ .device ∨ t.st = .wEwds) →
      ∀ a, memRead t.mem a = memRead s.mem a) ∧
    (s.st = .wEwds → s.transport = .device → t.st = .idle →
      (t.firstFail = none → t.writeCycle ≤ t.cfg.tSettle → p = t.deviceProfile →
        ∀ k, k ≠ 2 * s.addrQ.toNat → k ≠ 2 * s.addrQ.toNat + 1 → memRead t.mem k = memRead s.mem k) ∧
      (t.firstFail ≠ none ∨ t.cfg.tSettle < t.writeCycle ∨ p ≠ t.deviceProfile → ∀ k, memRead t.mem k = none)) ∧
    (∀ a d, i.writeArgs? = some (a, d) →
      (∀ w x, deviceTarget p t.trace (reqData d) = some (w, x) →
        ∀ k, k ≠ 2 * w → k ≠ 2 * w + 1 → memRead t.mem k = memRead s.mem k) ∧
      (deviceTarget p t.trace (reqData d) = none → ∀ k, memRead t.mem k = memRead s.mem k))

/-- The reference device (95_test_vectors.md, D15): when the open frame is `101` and the address, the data request
stores the low byte, then the high byte, under that address, and nothing else (log 7). -/
def Obligations.MockStoresTheWriteFrame : Prop :=
  ∀ (s : State) (p : Profile) (a : Nat) (d : Word) (ans : TxAnswer), ReadyAt s p .wData .asserted ans →
    a < 2 ^ p.addrBits → s.transport = .loopback →
    openFrame s.trace = [true, false, true] ++ msbBits a p.addrBits →
    ∃ t, exec (Instr.writeOf p a d) s = .next t ∧ memReadWord t.mem a = some d ∧
      memRead t.mem (2 * a) = some (BitVec.ofNat 8 (d.toNat % 256)) ∧
      memRead t.mem (2 * a + 1) = some (BitVec.ofNat 8 (d.toNat / 256)) ∧
      ∀ k, k ≠ 2 * a → k ≠ 2 * a + 1 → memRead t.mem k = memRead s.mem k

/-- The reference device: a read inside a READ frame is answered with the word stored under the frame's address, and
changes nothing stored (D27; log 7). -/
def Obligations.MockReturnsTheStoredWord : Prop :=
  ∀ (s : State) (p : Profile) (a : Nat) (d : Word), s.fault = [] → s.cfg.profile = p → s.st = .rData →
    s.cs = .asserted → s.txIn = [] → s.transport = .loopback → a < 2 ^ p.addrBits →
    openFrame s.trace = [true, true, false] ++ msbBits a p.addrBits ++ [false] → memReadWord s.mem a = some d →
    ∃ t, exec (Instr.readOf p a) s = .next t ∧ t.mem = s.mem ∧ t.lastStatus = .success ∧
      t.rxQ = ⟨BitVec.ofNat 8 (d.toNat % 256), BitVec.ofNat 8 (d.toNat / 256)⟩ ∧
      t.responses = s.responses ++ [⟨resultOf { s with lastStatus := .success }, some d⟩]

/-- R59's conditions 1 and 2, R55, R162 (D22, D23): with the device of R59 behind the transport, the EWDS that completes
a WRITE_WORD whose calls all returned SUCCESS, under a `T_SETTLE` of at least the device's write-cycle time and the
device's own profile, leaves the word at `addr_q` reading as the data, and every other byte as it was; otherwise the
contents are unconstrained, and the store holds nothing. The device's form is log 22, its profile log 24. -/
def Obligations.DeviceKeepsVisibleWrites : Prop :=
  ∀ (s : State) (p : Profile) (ans : TxAnswer), ReadyAt s p .wEwds .deasserted ans → s.transport = .device →
    ∃ t, exec (Instr.ewdsOf p) s = .next t ∧ t.st = .idle ∧
      (s.firstFail = none ∧ ans.status = .success ∧ s.writeCycle ≤ s.cfg.tSettle ∧ p = s.deviceProfile →
        memReadWord t.mem s.addrQ.toNat = some s.dataQ ∧
        ∀ k, k ≠ 2 * s.addrQ.toNat → k ≠ 2 * s.addrQ.toNat + 1 → memRead t.mem k = memRead s.mem k) ∧
      (s.firstFail ≠ none ∨ ans.status ≠ .success ∨ s.cfg.tSettle < s.writeCycle ∨ p ≠ s.deviceProfile → t.mem = [])

/-- A word of the reference store (log 7) reads back as written, and no other word is touched. -/
def Obligations.StoredWordReadsBack : Prop :=
  ∀ (m : List Host.Cell) (a k : Nat) (d : Word),
    memReadWord (memWriteWord m a (wordSplit d)) k = if k = a then some d else memReadWord m k

/-- R86, R17: a command word of another profile than the session's is refused by that name (log 9). -/
def Obligations.OtherProfileWordsAreRefused : Prop :=
  ∀ (s : State) (i : Instr) (p : Profile), i.profile? = some p → s.fault = [] → s.cfg.profile ≠ p →
    exec i s = .refused (.otherProfile p s.cfg.profile)

/-- R87: the sequencer invokes one codec primitive per state; a command word has no meaning in the others (log 8). -/
def Obligations.OutOfSequenceWordsFault : Prop :=
  ∀ (s : State) (a : Nat) (d : Word), s.fault = [] →
    (s.st ≠ .wEwen → exec (Instr.ewenOf s.cfg.profile) s = .fault (.outOfSequence s.st)) ∧
    (s.st ≠ .wEwds → exec (Instr.ewdsOf s.cfg.profile) s = .fault (.outOfSequence s.st)) ∧
    (s.st ≠ .wOp → s.st ≠ .wAddr → s.st ≠ .wData →
      exec (Instr.writeOf s.cfg.profile a d) s = .fault (.outOfSequence s.st)) ∧
    (s.st ≠ .rOp → s.st ≠ .rAddr → s.st ≠ .rDummy → s.st ≠ .rData →
      exec (Instr.readOf s.cfg.profile a) s = .fault (.outOfSequence s.st))

/-! ## Steps -/

/-- In IDLE a presented record that decodes to `i` is taken off the command port and run. -/
def Obligations.StepRunsThePresentedCommand : Prop :=
  ∀ (s : State) (r : BitVec 33) (rest : List (BitVec 33)) (i : Instr), s.fault = [] → s.st = .idle →
    s.cmds = r :: rest → decode (.host r) = .ok i → step s = exec i { s with cmds := rest }

/-- In a state of a frame, the frame's bits, built from the latched operands, decode to the instruction the step runs
(R81, R116 to R119, R123, R126 to R129). -/
def Obligations.StepRunsTheFramesCommandWord : Prop :=
  ∀ (s : State) (i : Instr), s.fault = [] → s.addrInRange →
    (s.st = .wEwen → decodeFrame s.cfg.profile (encodeEwen s.cfg.profile) = .ok i → step s = exec i s) ∧
    (s.st = .wEwds → decodeFrame s.cfg.profile (encodeEwds s.cfg.profile) = .ok i → step s = exec i s) ∧
    (s.st = .wOp ∨ s.st = .wAddr ∨ s.st = .wData →
      decodeFrame s.cfg.profile (encodeWrite s.cfg.profile s.addrQ.toNat s.dataQ) = .ok i → step s = exec i s) ∧
    (s.st = .rOp ∨ s.st = .rAddr ∨ s.st = .rDummy ∨ s.st = .rData →
      decodeFrame s.cfg.profile (encodeRead s.cfg.profile s.addrQ.toNat) = .ok i → step s = exec i s)

/-- The strobe frame (R96, R97, R121): its two zero-length requests, which drive no bit, each with its exception; and
the delay between them, which writes neither status nor the CS view, ends when the timer ends it, and until then leaves
the block where it is, not complete. The timer's input and the waiting step are log 5, the delay's trace line is log 16,
and the reference store after STROBE_OFF is what the mock's own function of the trace says (log 7). -/
def Obligations.StrobeFrameSteps : Prop :=
  ∀ s : State, s.fault = [] →
    ((Request.write .bits 0 [] true false).wireBits = [] ∧ (Request.write .bits 0 [] false true).wireBits = []) ∧
    (∀ ans, s.st = .wStrbOn → s.cs = .deasserted → s.answer? = some ans →
      step s = .next { afterIssue s ans ⟨.write .bits 0 [] true false, .status ans.status⟩ with
        st := .wSettle, cs := .asserted }) ∧
    (s.st = .wStrbOn → s.cs = .asserted →
      step s = .next { s with fault := [.csFrame (.write .bits 0 [] true false) .asserted] }) ∧
    (s.st = .wSettle → s.settleEnds = true →
      step s = .next { s with st := .wStrbOff, trace := s.trace ++ [⟨.delay s.cfg.tSettle, .settled⟩] }) ∧
    (s.st = .wSettle → s.settleEnds = false → ∃ t, step s = .next t ∧ t.st = .wSettle ∧ t.complete = false ∧
      t.lastStatus = s.lastStatus ∧ t.firstFail = s.firstFail ∧ t.cs = s.cs ∧ t.trace = s.trace) ∧
    (∀ ans line, s.st = .wStrbOff → s.cs = .asserted → s.answer? = some ans →
      line = ⟨.write .bits 0 [] false true, .status ans.status⟩ →
      step s = .next { afterIssue s ans line with
        st := .wEwds
        cs := .deasserted
        mem := if s.transport = .loopback then deviceStore s.cfg.profile (s.trace ++ [line]) line.req s.mem
          else s.mem }) ∧
    (s.st = .wStrbOff → s.cs = .deasserted →
      step s = .next { s with fault := [.csFrame (.write .bits 0 [] false true) .deasserted] })

/-- The requests of R81, each in its sequencer state and followed by the next one (R134): the complete next-state
function, for a framed block that is answered. The trace's line for the delay is that of L3.3 (log 16). -/
def Obligations.NextStateTable : Prop :=
  ∀ s : State, s.fault = [] → s.csFramed → s.answer?.isSome → s.settleEnds = true →
    (∀ st next req, (st, next, req) ∈ [
        (Seq.wEwen, Seq.wOp, Request.write .bits s.cfg.profile.cmdBits [0x9F, 0xFF] true true),
        (.wOp, .wAddr, .write .bits 3 [0xA0] true false),
        (.wAddr, .wData, .write .bits s.cfg.profile.addrBits [addrByte s.cfg.profile s.addrQ.toNat] false false),
        (.wData, .wStrbOn, .write .bytes 2 [lowByte s.dataQ, highByte s.dataQ] false true),
        (.wStrbOn, .wSettle, .write .bits 0 [] true false),
        (.wSettle, .wStrbOff, .delay s.cfg.tSettle),
        (.wStrbOff, .wEwds, .write .bits 0 [] false true),
        (.wEwds, .idle, .write .bits s.cfg.profile.cmdBits [0x80, 0x00] true true),
        (.rOp, .rAddr, .write .bits 3 [0xC0] true false),
        (.rAddr, .rDummy, .write .bits s.cfg.profile.addrBits [addrByte s.cfg.profile s.addrQ.toNat] false false),
        (.rDummy, .rData, .write .bits 1 [0x00] false false),
        (.rData, .idle, .read 2 true)] →
      s.st = st → ∃ t, step s = .next t ∧ t.st = next ∧ t.fault = [] ∧
        t.trace.map (·.req) = s.trace.map (·.req) ++ [req] ∧
        (t.responses.length = s.responses.length + if next = .idle then 1 else 0)) ∧
    (∀ op addr data rest, s.st = .idle → s.cmds = encodeHost op addr data :: rest → Accepts s addr →
      ∃ t, step s = .next t ∧ t.st = (if op = 0 then .wEwen else .rOp) ∧ t.addrQ.toNat = latched s addr ∧
        t.fault = [] ∧ t.trace = s.trace ∧ t.responses = s.responses)

/-- R106, R107, R141: a request against the framing contract raises F_CS_FRAME with the request and the CS view, and
is not issued: nothing else changes. -/
def Obligations.CsViolationFaultsUnissued : Prop :=
  ∀ (s : State) (req : Request), s.fault = [] → s.request? = some req → req.isCall = true →
    (∃ v, csCheck req s.cs = some v) →
    step s = .next { s with fault := [.csFrame req s.cs] }

/-- The CS-frame controller in isolation (R106, R107, R108), for any request of its kind: the checks before the issue,
the fault each raises without issuing, and the view after the answer, whatever the answer. -/
def Obligations.FrameControllerChecks : Prop :=
  ∀ (s : State) (u : TxUnit) (n : Nat) (b : List Byte) (dcs : Bool) (ans : TxAnswer) (done : TxAnswer → State → State),
    s.fault = [] → s.answer? = some ans →
    (s.cs = .asserted →
      issue (.write u n b true dcs) done s = { s with fault := [.csFrame (.write u n b true dcs) .asserted] }) ∧
    (s.cs = .deasserted →
      issue (.write u n b false dcs) done s = { s with fault := [.csFrame (.write u n b false dcs) .deasserted] } ∧
      issue (.read n dcs) done s = { s with fault := [.csFrame (.read n dcs) .deasserted] }) ∧
    (s.cs = .deasserted → ∃ t, issue (.write u n b true dcs) done s = done ans t ∧
      t.cs = (if dcs then .deasserted else .asserted) ∧
      t.trace = s.trace ++ [⟨.write u n b true dcs, .status ans.status⟩]) ∧
    (s.cs = .asserted → ∃ t, issue (.write u n b false dcs) done s = done ans t ∧
      t.cs = (if dcs then .deasserted else .asserted) ∧
      t.trace = s.trace ++ [⟨.write u n b false dcs, .status ans.status⟩]) ∧
    (s.cs = .asserted → ∃ t, issue (.read n dcs) done s = done ans t ∧
      t.cs = (if dcs then .deasserted else .asserted) ∧
      t.trace = s.trace ++ [⟨.read n dcs, .read ans.status ans.nXfer (s.received ans n)⟩])

/-- No step ever stops the machine: every state has a next one, and so has every run. Host records have no illegal
encoding (R85), a failed call is a status (R132), and the block's faults are state (R140). Waiting is a step to itself
(log 4, 11, 12). No run changes its surroundings: what stands behind the transport, the timer's input, and the device on
the channel, its profile and its write-cycle time (R155, R160; log 3, 5, 22, 24). -/
def Obligations.EveryRunGoesOn : Prop :=
  ∀ (n : Nat) (s : State), ∃ t : State, Host.Core.run Sys2Proof.core n s = .next t ∧
    t.transport = s.transport ∧ t.settleEnds = s.settleEnds ∧ t.deviceProfile = s.deviceProfile ∧
    t.writeCycle = s.writeCycle

/-- R141, R43: a faulted block is quiescent for the rest of the run, and never complete. That a quiescent block steps
to itself is the model's form of "no step" (log 11). -/
def Obligations.FaultedBlockIsQuiescent : Prop :=
  ∀ (n : Nat) (s : State), s.fault ≠ [] →
    Host.Core.run Sys2Proof.core n s = .next s ∧ s.complete = false ∧ s.cmdReady = false

/-- R16, R169: while the transport does not answer, a framed block waits for ever in the state it is in, and so it
does while the settle delay does not end. The form of the wait is the model's (log 4, 5). -/
def Obligations.UnansweredBlockWaitsForEver : Prop :=
  ∀ (n : Nat) (s : State), s.csFramed → s.st ≠ .idle →
    (s.st = .wSettle ∧ s.settleEnds = false) ∨ (s.st ≠ .wSettle ∧ s.txIn = [] ∧ s.transport = .silent) →
    Host.Core.run Sys2Proof.core n s = .next s ∧ s.complete = false

/-- R154: the configuration is the one the session began with, for the session's lifetime: no run of steps writes it. -/
def Obligations.NoStepWritesTheConfiguration : Prop :=
  ∀ (n : Nat) (s t : State), Host.Core.run Sys2Proof.core n s = .next t → t.cfg = s.cfg

/-- R141: a fault is added to the set, and the step that raises it issues no request and delivers no response, so it is
precise; from then on, for the rest of the run, nothing clears it, no request is issued, no response is delivered,
`cmd_ready` is 0 and the block is never complete. -/
def Obligations.FaultsStopTheBlock : Prop :=
  (∀ (s t : State), step s = .next t → t.fault ≠ s.fault →
    (∃ f, t.fault = s.fault ++ [f]) ∧ t.trace = s.trace ∧ t.responses = s.responses ∧ t.cmdReady = false) ∧
  (∀ (n : Nat) (s t : State), s.fault ≠ [] → Host.Core.run Sys2Proof.core n s = .next t →
    t.fault = s.fault ∧ t.trace = s.trace ∧ t.responses = s.responses ∧ t.cmdReady = false ∧ t.complete = false)

/-- R30: the latched command holds for the whole transaction. -/
def Obligations.LatchedCommandHolds : Prop :=
  ∀ (s t : State), s.st ≠ .idle → step s = .next t →
    t.opQ = s.opQ ∧ t.addrQ = s.addrQ ∧ t.dataQ = s.dataQ ∧ t.cmds = s.cmds ∧ t.accepted = s.accepted

/-- R16, R42: a step issues at most one request, and the trace keeps every one before it. -/
def Obligations.AtMostOneRequestAStep : Prop :=
  ∀ (s t : State), step s = .next t → ∃ new, t.trace = s.trace ++ new ∧ new.length ≤ 1

/-- R132: the answer to a call does not change what the block does next: two states that differ in the next answer
alone issue the same request and go to the same state, with the same CS view and no other fault. In a framed busy block
that state is the next one of the sequence. -/
def Obligations.NoShortCircuitOnStatus : Prop :=
  ∀ (s : State) (x y : TxAnswer) (rest : List TxAnswer),
    ∃ t u, step { s with txIn := x :: rest } = .next t ∧ step { s with txIn := y :: rest } = .next u ∧
      t.st = u.st ∧ t.cs = u.cs ∧ t.fault = u.fault ∧ t.trace.map (·.req) = u.trace.map (·.req) ∧
      t.responses.length = u.responses.length ∧ t.cmds = u.cmds ∧
      (s.fault = [] → s.csFramed → s.st ≠ .idle → s.settleEnds = true → t.st = s.st.next ∧ t.fault = [])

/-! ## Headlines -/

/-- The invariant (R104, R110: framing, and F_CS_FRAME unreachable; R30; R34; R23; R45; the store's canonical form):
every step keeps it, from every state that has it. -/
def Obligations.EveryStepKeepsTheInvariant : Prop :=
  ∀ (s t : State), s.Inv → step s = .next t → t.Inv

/-- The whole of WRITE_WORD (R115, R124, R131, R134, R81): 1 + 8 steps, the eight requests in order whatever the
statuses, one response with the policy's status and no data, and the block back in IDLE with CS deasserted. -/
def Obligations.WriteWordTransaction : Prop :=
  ∀ (s : State) (addr : BitVec 16) (data : Word) (rest : List (BitVec 33)) (a b c d e f g : TxAnswer)
    (more : List TxAnswer),
    Presents s (encodeHost 0 addr data) rest → Accepts s addr → s.settleEnds = true →
    s.txIn = [a, b, c, d, e, f, g] ++ more →
    ∃ t : State, Host.Core.run Sys2Proof.core 9 s = .next t ∧ t.st = .idle ∧ t.fault = [] ∧ t.cs = .deasserted ∧
      t.cmds = rest ∧ t.txIn = more ∧ t.accepted = s.accepted + 1 ∧
      t.responses = s.responses ++ [⟨transactionStatus s.cfg.statusPolicy
        [a.status, b.status, c.status, d.status, e.status, f.status, g.status], none⟩] ∧
      t.trace = s.trace ++ [
        ⟨.write .bits s.cfg.profile.cmdBits [0x9F, 0xFF] true true, .status a.status⟩,
        ⟨.write .bits 3 [0xA0] true false, .status b.status⟩,
        ⟨.write .bits s.cfg.profile.addrBits [addrByte s.cfg.profile (latched s addr)] false false, .status c.status⟩,
        ⟨.write .bytes 2 [lowByte data, highByte data] false true, .status d.status⟩,
        ⟨.write .bits 0 [] true false, .status e.status⟩,
        ⟨.delay s.cfg.tSettle, .settled⟩,
        ⟨.write .bits 0 [] false true, .status f.status⟩,
        ⟨.write .bits s.cfg.profile.cmdBits [0x80, 0x00] true true, .status g.status⟩]

/-- The whole of READ_WORD (R125, R130, R131, R134, R81): 1 + 4 steps, the four requests in order whatever the
statuses, and one response with the policy's status and `(b1 << 8) | b0` of the bytes the read returned. -/
def Obligations.ReadWordTransaction : Prop :=
  ∀ (s : State) (addr : BitVec 16) (ignored : Word) (rest : List (BitVec 33)) (a b c d : TxAnswer)
    (more : List TxAnswer),
    Presents s (encodeHost 1 addr ignored) rest → Accepts s addr →
    s.txIn = [a, b, c, d] ++ more →
    ∃ t : State, Host.Core.run Sys2Proof.core 5 s = .next t ∧ t.st = .idle ∧ t.fault = [] ∧ t.cs = .deasserted ∧
      t.cmds = rest ∧ t.txIn = more ∧ t.accepted = s.accepted + 1 ∧ t.nxQ = d.nXfer ∧
      (∀ b0 b1 beyond, d.rx = b0 :: b1 :: beyond → t.rxQ = ⟨b0, b1⟩) ∧
      t.responses = s.responses ++ [⟨transactionStatus s.cfg.statusPolicy [a.status, b.status, c.status, d.status],
        some (BitVec.ofNat 16 (256 * t.rxQ.b1.toNat + t.rxQ.b0.toNat))⟩] ∧
      t.trace = s.trace ++ [
        ⟨.write .bits 3 [0xC0] true false, .status a.status⟩,
        ⟨.write .bits s.cfg.profile.addrBits [addrByte s.cfg.profile (latched s addr)] false false, .status b.status⟩,
        ⟨.write .bits 1 [0x00] false false, .status c.status⟩,
        ⟨.read 2 true, .read d.status d.nXfer [t.rxQ.b0, t.rxQ.b1]⟩]

/-- What the transactions put on the wire (R76, R78 to R80, R103): for WRITE_WORD the four frames EWEN, WRITE, strobe
and EWDS, `3C + 16` bits in all; for READ_WORD the READ frame alone, `C + 1` driven bits and 16
clocked in. Whatever the answers, of any
transport but a silent one. -/
def Obligations.TransactionsPutTheirFramesOnTheWire : Prop :=
  ∀ (s : State) (addr : BitVec 16) (data : Word) (rest : List (BitVec 33)),
    Fair s → Accepts s addr →
    (Presents s (encodeHost 0 addr data) rest → ∃ t : State, ∃ new, Host.Core.run Sys2Proof.core 9 s = .next t ∧
      t.trace = s.trace ++ new ∧
      cutFrames new = ([], [encodeEwen s.cfg.profile, encodeWrite s.cfg.profile (latched s addr) data, [],
        encodeEwds s.cfg.profile]) ∧
      (wireBits new).length = 3 * s.cfg.profile.cmdBits + 16 ∧ (new.flatMap (fun e => e.reply.bitsIn)).length = 0) ∧
    (Presents s (encodeHost 1 addr data) rest → ∃ t : State, ∃ new, Host.Core.run Sys2Proof.core 5 s = .next t ∧
      t.trace = s.trace ++ new ∧
      cutFrames new = ([], [encodeRead s.cfg.profile (latched s addr)]) ∧
      (wireBits new).length = s.cfg.profile.cmdBits + 1 ∧ (new.flatMap (fun e => e.reply.bitsIn)).length = 16)

/-- The round trip (R50, R59, E3): over the loopback mock of the spec, WRITE_WORD and then READ_WORD at the same
address, in range or truncated, returns the written Word, with SUCCESS twice under either status policy. -/
def Obligations.LoopbackRoundTrip : Prop :=
  ∀ (s : State) (addr : BitVec 16) (data ignored : Word) (rest : List (BitVec 33)),
    Presents s (encodeHost 0 addr data) (encodeHost 1 addr ignored :: rest) →
    s.transport = .loopback → s.txIn = [] → s.settleEnds = true →
    (addr.toNat < 2 ^ s.cfg.profile.addrBits ∨ s.cfg.addrPolicy = .truncate) →
    ∃ t : State, Host.Core.run Sys2Proof.core 14 s = .next t ∧ t.st = .idle ∧ t.fault = [] ∧ t.cs = .deasserted ∧
      t.cmds = rest ∧ t.responses = s.responses ++ [⟨.success, none⟩, ⟨.success, some data⟩] ∧
      memReadWord t.mem (addr.toNat % 2 ^ s.cfg.profile.addrBits) = some data

/-- R59 (D22), R98: with the device of R59 behind the transport, WRITE_WORD and then READ_WORD at the same address
return the written Word if every call of both returned SUCCESS, `T_SETTLE` is at least the write-cycle time and the read
is not short, in a session of the device's profile (R162); "If any condition fails, a later READ_WORD's data is
unconstrained": a draw, and so are the bytes of a read with `n_xfer` below 2 and all of a device that is not matched. The
read's answer lists no bytes, so that they are the device's. The device's form is log 22, its profile log 24. -/
def Obligations.VisibleWriteIsReadBack : Prop :=
  ∀ (s : State) (addr : BitVec 16) (data ignored : Word) (rest : List (BitVec 33)) (a b c d e f g h i j k : TxAnswer)
    (more : List TxAnswer),
    Presents s (encodeHost 0 addr data) (encodeHost 1 addr ignored :: rest) → Accepts s addr →
    s.transport = .device → s.settleEnds = true → s.txIn = [a, b, c, d, e, f, g, h, i, j, k] ++ more → k.rx = [] →
    ∃ (t : State) (w : Word), Host.Core.run Sys2Proof.core 14 s = .next t ∧ t.st = .idle ∧ t.fault = [] ∧
      t.responses = s.responses ++ [
        ⟨transactionStatus s.cfg.statusPolicy [a.status, b.status, c.status, d.status, e.status, f.status, g.status], none⟩,
        ⟨transactionStatus s.cfg.statusPolicy [h.status, i.status, j.status, k.status], some w⟩] ∧
      (firstFailureOf ([a, b, c, d, e, f, g, h, i, j, k].map (·.status)) = .success ∧ s.writeCycle ≤ s.cfg.tSettle ∧
        2 ≤ k.nXfer ∧ s.cfg.profile = s.deviceProfile → w = data) ∧
      (firstFailureOf ([a, b, c, d, e, f, g, h, i, j, k].map (·.status)) ≠ .success ∨ s.cfg.tSettle < s.writeCycle ∨
        k.nXfer < 2 ∨ s.cfg.profile ≠ s.deviceProfile →
        w = wordAssemble ⟨Config.rxByte (s.draws + 10) 0, Config.rxByte (s.draws + 10) 1⟩)

/-- R23, R169: from any framed busy state, a fair transport and timer bring the block back to IDLE within eight steps,
with exactly one more response and no fault. -/
def Obligations.FairTransactionsComplete : Prop :=
  ∀ s : State, Fair s → s.fault = [] → s.csFramed → s.st ≠ .idle →
    ∃ n t, n ≤ 8 ∧ Host.Core.run Sys2Proof.core n s = .next (t : State) ∧ t.st = .idle ∧ t.fault = [] ∧
      t.cs = .deasserted ∧ t.responses.length = s.responses.length + 1 ∧ t.cmds = s.cmds

/-- R35: "No persisted state crosses transactions". Two framed blocks at a transaction boundary that agree on the
configuration, on what the host will present and on their surroundings, but on nothing else, give the same new
responses and issue the same new requests, for ever. -/
def Obligations.TransactionsForgetThePast : Prop :=
  ∀ (n : Nat) (s u t v : State),
    (s.st = .idle ∧ u.st = .idle) → (s.fault = [] ∧ u.fault = []) → (s.cs = .deasserted ∧ u.cs = .deasserted) →
    s.cfg = u.cfg → s.cmds = u.cmds →
    (s.txIn = u.txIn ∧ s.transport = u.transport ∧ s.settleEnds = u.settleEnds ∧ s.mem = u.mem ∧
      s.writeCycle = u.writeCycle ∧ s.deviceProfile = u.deviceProfile ∧ s.draws = u.draws) →
    Host.Core.run Sys2Proof.core n s = .next t → Host.Core.run Sys2Proof.core n u = .next v →
    t.responses.drop s.responses.length = v.responses.drop u.responses.length ∧
    t.trace.drop s.trace.length = v.trace.drop u.trace.length ∧ t.st = v.st ∧ t.fault = v.fault

/-- A reset and a new session keep the block's invariant. In a transaction either ends the run with F_ABORTED, whatever
the configuration asked for, and the device's contents are forgotten (R157). At a boundary, or after a fault, a session
begins (R153, R156), whose registers start from their reset values. That the device's contents outlast a session only
at a boundary, and only if the device's profile is that of both sessions, is the model's choice (log 14, 24). -/
def Obligations.SessionsKeepTheInvariant : Prop :=
  ∀ s : State, s.Inv → s.hostReset.Inv ∧ ∀ c : SessionConfig, (s.newSession c).Inv ∧
    (s.st ≠ .idle → s.fault = [] → s.newSession c = { s with fault := [.aborted s.st], mem := [] }) ∧
    (s.st = .idle ∨ s.fault ≠ [] → (s.newSession c).cmdReady = true ∧ (s.newSession c).cfg = c ∧
      (s.newSession c).deviceProfile = s.deviceProfile ∧
      (s.st = .idle → c.profile = s.cfg.profile → c.profile = s.deviceProfile → (s.newSession c).mem = s.mem) ∧
      (s.st ≠ .idle ∨ c.profile ≠ s.cfg.profile ∨ c.profile ≠ s.deviceProfile → (s.newSession c).mem = []))

/-- R170, R167, R98, R162: what the host may trust of a READ_WORD after a WRITE_WORD at the same address, over the
device of R59 (log 22). With another status than SUCCESS, nothing. If the three conditions of R59 hold, the read is not
short and the device is matched (log 24), the written Word. Under FIRST_FAILURE, once the write is visible, whatever is
trusted of such a read is the written Word. Under LAST a SUCCESS is no such assurance: the response may carry SUCCESS and
a draw; and so it may under either policy after a short read or over a device that is not matched. The read's answer
lists no bytes, so that they are the device's. -/
def Obligations.TrustedReadIsTheWrittenWord : Prop :=
  ∀ (s : State) (addr : BitVec 16) (data ignored : Word) (rest : List (BitVec 33)) (a b c d e f g h i j k : TxAnswer)
    (more : List TxAnswer),
    Presents s (encodeHost 0 addr data) (encodeHost 1 addr ignored :: rest) → Accepts s addr →
    s.transport = .device → s.settleEnds = true → s.txIn = [a, b, c, d, e, f, g, h, i, j, k] ++ more → k.rx = [] →
    ∃ (t : State) (w r : Response), Host.Core.run Sys2Proof.core 14 s = .next t ∧ t.responses = s.responses ++ [w, r] ∧
      w.trusted? = none ∧ r.status = transactionStatus s.cfg.statusPolicy [h.status, i.status, j.status, k.status] ∧
      (r.status ≠ .success → r.trusted? = none) ∧
      (firstFailureOf ([a, b, c, d, e, f, g, h, i, j, k].map (·.status)) = .success → s.writeCycle ≤ s.cfg.tSettle →
        2 ≤ k.nXfer → s.cfg.profile = s.deviceProfile → r.trusted? = some data) ∧
      (s.cfg.statusPolicy = .firstFailure → firstFailureOf ([a, b, c, d, e, f, g].map (·.status)) = .success →
        s.writeCycle ≤ s.cfg.tSettle → 2 ≤ k.nXfer → s.cfg.profile = s.deviceProfile →
        ∀ x, r.trusted? = some x → x = data) ∧
      (s.cfg.statusPolicy = .last → k.status = .success →
        firstFailureOf ([a, b, c, d, e, f, g, h, i, j].map (·.status)) ≠ .success →
        r.trusted? = some (wordAssemble ⟨Config.rxByte (s.draws + 10) 0, Config.rxByte (s.draws + 10) 1⟩)) ∧
      (r.status = .success → k.nXfer < 2 ∨ s.cfg.profile ≠ s.deviceProfile →
        r.trusted? = some (wordAssemble ⟨Config.rxByte (s.draws + 10) 0, Config.rxByte (s.draws + 10) 1⟩))

/-- R98 ("With `n_xfer < 2` ... A model draws the bytes"), I7, R162, N7: READ of each profile in R_DATA whose answer
lists no bytes and is short or failed, over any transport and any store, or whose answer is any at all, over the device
of R59 while its profile is not the session's (log 24): it completes, `nx_q` records `n_xfer`, and `rx_q` and the response
take two drawn bytes. The draws' form is log 3. -/
def Obligations.ShortOrMismatchedReadsAreDraws : Prop :=
  ∀ (s : State) (p : Profile) (a : Nat) (ans : TxAnswer), ReadyAt s p .rData .asserted ans → ans.rx = [] →
    ans.nXfer < 2 ∨ ans.status ≠ .success ∨ (s.transport = .device ∧ s.deviceProfile ≠ p) →
    ∃ t, exec (Instr.readOf p a) s = .next t ∧ t.st = .idle ∧ t.cs = .deasserted ∧ t.nxQ = ans.nXfer ∧
      t.lastStatus = ans.status ∧ t.mem = s.mem ∧ t.rxQ = ⟨Config.rxByte s.draws 0, Config.rxByte s.draws 1⟩ ∧
      t.responses = s.responses ++
        [⟨resultOf t, some (wordAssemble ⟨Config.rxByte s.draws 0, Config.rxByte s.draws 1⟩)⟩]
end

