-- ==== Sys2Proof/Laws/Bits.lean ====
section
/-! SUPPORT. Bit strings: lengths, values, and the two byte halves of a Word. -/

namespace Sys2Proof

@[simp] theorem msbBits_length (v n : Nat) : (msbBits v n).length = n := by
  induction n with
  | zero => rfl
  | succ n ih => simp [msbBits, ih]

/-- Reading on from an accumulator. -/
theorem foldl_msbBits (v n acc : Nat) :
    (msbBits v n).foldl (fun acc b => 2 * acc + b.toNat) acc = acc * 2 ^ n + v % 2 ^ n := by
  induction n generalizing acc with
  | zero => simp [msbBits, Nat.mod_one]
  | succ n ih =>
    have hb : (v.testBit n).toNat = v / 2 ^ n % 2 := by
      rw [Nat.testBit_eq_decide_div_mod_eq]
      rcases Nat.mod_two_eq_zero_or_one (v / 2 ^ n) with h | h <;> simp [h]
    have hm : v % 2 ^ (n + 1) = v % 2 ^ n + 2 ^ n * (v / 2 ^ n % 2) := by
      rw [pow_succ, Nat.mod_mul]
    rw [msbBits, List.foldl_cons, ih, hb, hm, pow_succ]
    ring

/-- The value of `msb_bits(v, n)` is `v mod 2^n`. -/
@[simp] theorem bitsVal_msbBits (v n : Nat) : bitsVal (msbBits v n) = v % 2 ^ n := by
  simpa [bitsVal] using foldl_msbBits v n 0

/-- A bit string is the `msb_bits` of its value. -/
theorem msbBits_bitsVal (bits : List Bool) : msbBits (bitsVal bits) bits.length = bits := by
  have key : ∀ (bits : List Bool) (acc : Nat),
      (∀ j, (bits.foldl (fun acc b => 2 * acc + b.toNat) acc).testBit (bits.length + j) = acc.testBit j) ∧
        msbBits (bits.foldl (fun acc b => 2 * acc + b.toNat) acc) bits.length = bits := by
    intro bits
    induction bits with
    | nil => intro acc; simp [msbBits]
    | cons b rest ih =>
      intro acc
      obtain ⟨h1, h2⟩ := ih (2 * acc + b.toNat)
      have hb : b.toNat < 2 := by cases b <;> decide
      refine ⟨fun j => ?_, ?_⟩
      · have := h1 (j + 1)
        simp only [List.foldl_cons, List.length_cons]
        rw [show rest.length + 1 + j = rest.length + (j + 1) by omega, this, Nat.testBit_succ]
        congr 1; omega
      · simp only [List.foldl_cons, List.length_cons, msbBits, h2, List.cons.injEq, and_true]
        have := h1 0
        simp only [Nat.add_zero] at this
        rw [this, Nat.testBit_zero]
        cases b <;> simp
  exact (key bits 0).2

/-- A read of `n` bytes brings `n` bytes. -/
@[simp] theorem clockIn_length (n : Nat) (bits : List Bool) : (clockIn n bits).length = n := by
  induction n generalizing bits with
  | zero => rfl
  | succ n ih => simp [clockIn, ih]

theorem bufferBits_cons (b : Byte) (buf : List Byte) : bufferBits (b :: buf) = msbBits b.toNat 8 ++ bufferBits buf := rfl

@[simp] theorem bufferBits_length (buf : List Byte) : (bufferBits buf).length = 8 * buf.length := by
  induction buf with
  | nil => rfl
  | cons b buf ih => simp [bufferBits_cons, ih]; omega

/-- Clocking in the bits of a byte list gives the byte list. -/
theorem clockIn_bufferBits (buf : List Byte) : clockIn buf.length (bufferBits buf) = buf := by
  induction buf with
  | nil => rfl
  | cons b buf ih =>
    have ht : (msbBits b.toNat 8 ++ bufferBits buf).take 8 = msbBits b.toNat 8 :=
      List.take_left' (msbBits_length _ _)
    have hd : (msbBits b.toNat 8 ++ bufferBits buf).drop 8 = bufferBits buf := List.drop_left' (msbBits_length _ _)
    have hb : b.toNat % 2 ^ 8 = b.toNat := Nat.mod_eq_of_lt b.isLt
    rw [List.length_cons, bufferBits_cons, clockIn, ht, hd, ih, bitsVal_msbBits, hb, BitVec.ofNat_toNat,
      BitVec.setWidth_eq]

theorem wordAssemble_toNat (p : BytePair) : (wordAssemble p).toNat = 256 * p.b1.toNat + p.b0.toNat := by
  have h0 := p.b0.isLt
  have h1 := p.b1.isLt
  have hs : p.b1.toNat <<< 8 < 2 ^ 16 := by rw [Nat.shiftLeft_eq]; omega
  simp only [wordAssemble, BitVec.toNat_or, BitVec.toNat_shiftLeft, BitVec.toNat_setWidth]
  rw [Nat.mod_eq_of_lt (show p.b1.toNat < 2 ^ 16 by omega), Nat.mod_eq_of_lt (show p.b0.toNat < 2 ^ 16 by omega),
    Nat.mod_eq_of_lt hs, Nat.shiftLeft_eq, Nat.mul_comm, ← Nat.two_pow_add_eq_or_of_lt h0]

theorem lowByte_toNat (d : Word) : (lowByte d).toNat = d.toNat % 256 := by
  simp [lowByte, BitVec.extractLsb'_toNat]

theorem highByte_toNat (d : Word) : (highByte d).toNat = d.toNat / 256 := by
  have := d.isLt
  simp only [highByte, BitVec.extractLsb'_toNat, Nat.shiftRight_eq_div_pow]
  omega

end Sys2Proof
end

