-- ==== Sys2Proof/Laws/State.lean ====
section
/-! SUPPORT. One lemma per field per update of `State`: what each shared update leaves in every field. All hold by
unfolding the one record update, so that no later proof unfolds it again. -/

namespace Sys2Proof.Machine

/-! ## raiseFault -/

@[simp] theorem raiseFault_cfg (f : BlockFault) (s : State) : (raiseFault f s).cfg = s.cfg := rfl
@[simp] theorem raiseFault_st (f : BlockFault) (s : State) : (raiseFault f s).st = s.st := rfl
@[simp] theorem raiseFault_opQ (f : BlockFault) (s : State) : (raiseFault f s).opQ = s.opQ := rfl
@[simp] theorem raiseFault_addrQ (f : BlockFault) (s : State) : (raiseFault f s).addrQ = s.addrQ := rfl
@[simp] theorem raiseFault_dataQ (f : BlockFault) (s : State) : (raiseFault f s).dataQ = s.dataQ := rfl
@[simp] theorem raiseFault_cs (f : BlockFault) (s : State) : (raiseFault f s).cs = s.cs := rfl
@[simp] theorem raiseFault_rxQ (f : BlockFault) (s : State) : (raiseFault f s).rxQ = s.rxQ := rfl
@[simp] theorem raiseFault_nxQ (f : BlockFault) (s : State) : (raiseFault f s).nxQ = s.nxQ := rfl
@[simp] theorem raiseFault_lastStatus (f : BlockFault) (s : State) : (raiseFault f s).lastStatus = s.lastStatus := rfl
@[simp] theorem raiseFault_firstFail (f : BlockFault) (s : State) : (raiseFault f s).firstFail = s.firstFail := rfl
@[simp] theorem raiseFault_fault (f : BlockFault) (s : State) : (raiseFault f s).fault = addFault f s.fault := rfl
@[simp] theorem raiseFault_cmds (f : BlockFault) (s : State) : (raiseFault f s).cmds = s.cmds := rfl
@[simp] theorem raiseFault_responses (f : BlockFault) (s : State) : (raiseFault f s).responses = s.responses := rfl
@[simp] theorem raiseFault_accepted (f : BlockFault) (s : State) : (raiseFault f s).accepted = s.accepted := rfl
@[simp] theorem raiseFault_trace (f : BlockFault) (s : State) : (raiseFault f s).trace = s.trace := rfl
@[simp] theorem raiseFault_txIn (f : BlockFault) (s : State) : (raiseFault f s).txIn = s.txIn := rfl
@[simp] theorem raiseFault_transport (f : BlockFault) (s : State) : (raiseFault f s).transport = s.transport := rfl
@[simp] theorem raiseFault_settleEnds (f : BlockFault) (s : State) : (raiseFault f s).settleEnds = s.settleEnds := rfl
@[simp] theorem raiseFault_mem (f : BlockFault) (s : State) : (raiseFault f s).mem = s.mem := rfl
@[simp] theorem raiseFault_writeCycle (f : BlockFault) (s : State) : (raiseFault f s).writeCycle = s.writeCycle := rfl
@[simp] theorem raiseFault_deviceProfile (f : BlockFault) (s : State) : (raiseFault f s).deviceProfile = s.deviceProfile := rfl
@[simp] theorem raiseFault_draws (f : BlockFault) (s : State) : (raiseFault f s).draws = s.draws := rfl

/-! ## advance -/

@[simp] theorem advance_cfg (s : State) : (advance s).cfg = s.cfg := rfl
@[simp] theorem advance_st (s : State) : (advance s).st = s.st.next := rfl
@[simp] theorem advance_opQ (s : State) : (advance s).opQ = s.opQ := rfl
@[simp] theorem advance_addrQ (s : State) : (advance s).addrQ = s.addrQ := rfl
@[simp] theorem advance_dataQ (s : State) : (advance s).dataQ = s.dataQ := rfl
@[simp] theorem advance_cs (s : State) : (advance s).cs = s.cs := rfl
@[simp] theorem advance_rxQ (s : State) : (advance s).rxQ = s.rxQ := rfl
@[simp] theorem advance_nxQ (s : State) : (advance s).nxQ = s.nxQ := rfl
@[simp] theorem advance_lastStatus (s : State) : (advance s).lastStatus = s.lastStatus := rfl
@[simp] theorem advance_firstFail (s : State) : (advance s).firstFail = s.firstFail := rfl
@[simp] theorem advance_fault (s : State) : (advance s).fault = s.fault := rfl
@[simp] theorem advance_cmds (s : State) : (advance s).cmds = s.cmds := rfl
@[simp] theorem advance_responses (s : State) : (advance s).responses = s.responses := rfl
@[simp] theorem advance_accepted (s : State) : (advance s).accepted = s.accepted := rfl
@[simp] theorem advance_trace (s : State) : (advance s).trace = s.trace := rfl
@[simp] theorem advance_txIn (s : State) : (advance s).txIn = s.txIn := rfl
@[simp] theorem advance_transport (s : State) : (advance s).transport = s.transport := rfl
@[simp] theorem advance_settleEnds (s : State) : (advance s).settleEnds = s.settleEnds := rfl
@[simp] theorem advance_mem (s : State) : (advance s).mem = s.mem := rfl
@[simp] theorem advance_writeCycle (s : State) : (advance s).writeCycle = s.writeCycle := rfl
@[simp] theorem advance_deviceProfile (s : State) : (advance s).deviceProfile = s.deviceProfile := rfl
@[simp] theorem advance_draws (s : State) : (advance s).draws = s.draws := rfl

/-! ## complete -/

@[simp] theorem complete_cfg (d : Option Word) (s : State) : (complete d s).cfg = s.cfg := rfl
@[simp] theorem complete_st (d : Option Word) (s : State) : (complete d s).st = s.st.next := rfl
@[simp] theorem complete_opQ (d : Option Word) (s : State) : (complete d s).opQ = s.opQ := rfl
@[simp] theorem complete_addrQ (d : Option Word) (s : State) : (complete d s).addrQ = s.addrQ := rfl
@[simp] theorem complete_dataQ (d : Option Word) (s : State) : (complete d s).dataQ = s.dataQ := rfl
@[simp] theorem complete_cs (d : Option Word) (s : State) : (complete d s).cs = s.cs := rfl
@[simp] theorem complete_rxQ (d : Option Word) (s : State) : (complete d s).rxQ = s.rxQ := rfl
@[simp] theorem complete_nxQ (d : Option Word) (s : State) : (complete d s).nxQ = s.nxQ := rfl
@[simp] theorem complete_lastStatus (d : Option Word) (s : State) : (complete d s).lastStatus = s.lastStatus := rfl
@[simp] theorem complete_firstFail (d : Option Word) (s : State) : (complete d s).firstFail = s.firstFail := rfl
@[simp] theorem complete_fault (d : Option Word) (s : State) : (complete d s).fault = s.fault := rfl
@[simp] theorem complete_cmds (d : Option Word) (s : State) : (complete d s).cmds = s.cmds := rfl
@[simp] theorem complete_responses (d : Option Word) (s : State) : (complete d s).responses = s.responses ++ [⟨s.resultStatus, d⟩] := rfl
@[simp] theorem complete_accepted (d : Option Word) (s : State) : (complete d s).accepted = s.accepted := rfl
@[simp] theorem complete_trace (d : Option Word) (s : State) : (complete d s).trace = s.trace := rfl
@[simp] theorem complete_txIn (d : Option Word) (s : State) : (complete d s).txIn = s.txIn := rfl
@[simp] theorem complete_transport (d : Option Word) (s : State) : (complete d s).transport = s.transport := rfl
@[simp] theorem complete_settleEnds (d : Option Word) (s : State) : (complete d s).settleEnds = s.settleEnds := rfl
@[simp] theorem complete_mem (d : Option Word) (s : State) : (complete d s).mem = s.mem := rfl
@[simp] theorem complete_writeCycle (d : Option Word) (s : State) : (complete d s).writeCycle = s.writeCycle := rfl
@[simp] theorem complete_deviceProfile (d : Option Word) (s : State) : (complete d s).deviceProfile = s.deviceProfile := rfl
@[simp] theorem complete_draws (d : Option Word) (s : State) : (complete d s).draws = s.draws := rfl

/-! ## issueAnswered -/

@[simp] theorem issueAnswered_cfg (req : Request) (ans : TxAnswer) (s : State) : (issueAnswered req ans s).cfg = s.cfg := rfl
@[simp] theorem issueAnswered_st (req : Request) (ans : TxAnswer) (s : State) : (issueAnswered req ans s).st = s.st := rfl
@[simp] theorem issueAnswered_opQ (req : Request) (ans : TxAnswer) (s : State) : (issueAnswered req ans s).opQ = s.opQ := rfl
@[simp] theorem issueAnswered_addrQ (req : Request) (ans : TxAnswer) (s : State) : (issueAnswered req ans s).addrQ = s.addrQ := rfl
@[simp] theorem issueAnswered_dataQ (req : Request) (ans : TxAnswer) (s : State) : (issueAnswered req ans s).dataQ = s.dataQ := rfl
@[simp] theorem issueAnswered_cs (req : Request) (ans : TxAnswer) (s : State) : (issueAnswered req ans s).cs = csAfter req s.cs := rfl
@[simp] theorem issueAnswered_rxQ (req : Request) (ans : TxAnswer) (s : State) : (issueAnswered req ans s).rxQ = s.rxQ := rfl
@[simp] theorem issueAnswered_nxQ (req : Request) (ans : TxAnswer) (s : State) : (issueAnswered req ans s).nxQ = s.nxQ := rfl
@[simp] theorem issueAnswered_lastStatus (req : Request) (ans : TxAnswer) (s : State) : (issueAnswered req ans s).lastStatus = ans.status := rfl
@[simp] theorem issueAnswered_firstFail (req : Request) (ans : TxAnswer) (s : State) : (issueAnswered req ans s).firstFail = recordFailure ans.status s.firstFail := rfl
@[simp] theorem issueAnswered_fault (req : Request) (ans : TxAnswer) (s : State) : (issueAnswered req ans s).fault = s.fault := rfl
@[simp] theorem issueAnswered_cmds (req : Request) (ans : TxAnswer) (s : State) : (issueAnswered req ans s).cmds = s.cmds := rfl
@[simp] theorem issueAnswered_responses (req : Request) (ans : TxAnswer) (s : State) : (issueAnswered req ans s).responses = s.responses := rfl
@[simp] theorem issueAnswered_accepted (req : Request) (ans : TxAnswer) (s : State) : (issueAnswered req ans s).accepted = s.accepted := rfl
@[simp] theorem issueAnswered_trace (req : Request) (ans : TxAnswer) (s : State) : (issueAnswered req ans s).trace = s.trace ++ [⟨req, replyTo req ans s⟩] := rfl
@[simp] theorem issueAnswered_txIn (req : Request) (ans : TxAnswer) (s : State) : (issueAnswered req ans s).txIn = s.txIn.tail := rfl
@[simp] theorem issueAnswered_transport (req : Request) (ans : TxAnswer) (s : State) : (issueAnswered req ans s).transport = s.transport := rfl
@[simp] theorem issueAnswered_settleEnds (req : Request) (ans : TxAnswer) (s : State) : (issueAnswered req ans s).settleEnds = s.settleEnds := rfl
@[simp] theorem issueAnswered_mem (req : Request) (ans : TxAnswer) (s : State) : (issueAnswered req ans s).mem = (if s.transport = .loopback then deviceStore s.cfg.profile (s.trace ++ [⟨req, replyTo req ans s⟩]) req s.mem else s.mem) := rfl
@[simp] theorem issueAnswered_writeCycle (req : Request) (ans : TxAnswer) (s : State) : (issueAnswered req ans s).writeCycle = s.writeCycle := rfl
@[simp] theorem issueAnswered_deviceProfile (req : Request) (ans : TxAnswer) (s : State) : (issueAnswered req ans s).deviceProfile = s.deviceProfile := rfl
@[simp] theorem issueAnswered_draws (req : Request) (ans : TxAnswer) (s : State) : (issueAnswered req ans s).draws = s.draws + 1 := rfl

/-! ## settleWrite: the store alone -/

@[simp] theorem settleWrite_cfg (s : State) : (settleWrite s).cfg = s.cfg := by unfold settleWrite; split <;> rfl
@[simp] theorem settleWrite_st (s : State) : (settleWrite s).st = s.st := by unfold settleWrite; split <;> rfl
@[simp] theorem settleWrite_opQ (s : State) : (settleWrite s).opQ = s.opQ := by unfold settleWrite; split <;> rfl
@[simp] theorem settleWrite_addrQ (s : State) : (settleWrite s).addrQ = s.addrQ := by unfold settleWrite; split <;> rfl
@[simp] theorem settleWrite_dataQ (s : State) : (settleWrite s).dataQ = s.dataQ := by unfold settleWrite; split <;> rfl
@[simp] theorem settleWrite_cs (s : State) : (settleWrite s).cs = s.cs := by unfold settleWrite; split <;> rfl
@[simp] theorem settleWrite_rxQ (s : State) : (settleWrite s).rxQ = s.rxQ := by unfold settleWrite; split <;> rfl
@[simp] theorem settleWrite_nxQ (s : State) : (settleWrite s).nxQ = s.nxQ := by unfold settleWrite; split <;> rfl
@[simp] theorem settleWrite_lastStatus (s : State) : (settleWrite s).lastStatus = s.lastStatus := by unfold settleWrite; split <;> rfl
@[simp] theorem settleWrite_firstFail (s : State) : (settleWrite s).firstFail = s.firstFail := by unfold settleWrite; split <;> rfl
@[simp] theorem settleWrite_fault (s : State) : (settleWrite s).fault = s.fault := by unfold settleWrite; split <;> rfl
@[simp] theorem settleWrite_cmds (s : State) : (settleWrite s).cmds = s.cmds := by unfold settleWrite; split <;> rfl
@[simp] theorem settleWrite_responses (s : State) : (settleWrite s).responses = s.responses := by unfold settleWrite; split <;> rfl
@[simp] theorem settleWrite_accepted (s : State) : (settleWrite s).accepted = s.accepted := by unfold settleWrite; split <;> rfl
@[simp] theorem settleWrite_trace (s : State) : (settleWrite s).trace = s.trace := by unfold settleWrite; split <;> rfl
@[simp] theorem settleWrite_txIn (s : State) : (settleWrite s).txIn = s.txIn := by unfold settleWrite; split <;> rfl
@[simp] theorem settleWrite_transport (s : State) : (settleWrite s).transport = s.transport := by unfold settleWrite; split <;> rfl
@[simp] theorem settleWrite_settleEnds (s : State) : (settleWrite s).settleEnds = s.settleEnds := by unfold settleWrite; split <;> rfl
@[simp] theorem settleWrite_writeCycle (s : State) : (settleWrite s).writeCycle = s.writeCycle := by unfold settleWrite; split <;> rfl
@[simp] theorem settleWrite_deviceProfile (s : State) : (settleWrite s).deviceProfile = s.deviceProfile := by unfold settleWrite; split <;> rfl
@[simp] theorem settleWrite_draws (s : State) : (settleWrite s).draws = s.draws := by unfold settleWrite; split <;> rfl

/-- What it leaves in the store. -/
theorem settleWrite_mem (s : State) : (settleWrite s).mem =
    if s.transport = .device then
      if s.writeVisible then memWriteWord s.mem s.addrQ.toNat (wordSplit s.dataQ) else []
    else s.mem := by
  unfold settleWrite; split <;> simp [*]

/-- Without the device of R59 it does nothing. -/
theorem settleWrite_eq {s : State} (h : s.transport ≠ .device) : settleWrite s = s := by
  unfold settleWrite; split <;> simp_all

/-! ## takeWord -/

@[simp] theorem takeWord_cfg (rx : BytePair) (n : Nat) (s : State) : (takeWord rx n s).cfg = s.cfg := rfl
@[simp] theorem takeWord_opQ (rx : BytePair) (n : Nat) (s : State) : (takeWord rx n s).opQ = s.opQ := rfl
@[simp] theorem takeWord_addrQ (rx : BytePair) (n : Nat) (s : State) : (takeWord rx n s).addrQ = s.addrQ := rfl
@[simp] theorem takeWord_dataQ (rx : BytePair) (n : Nat) (s : State) : (takeWord rx n s).dataQ = s.dataQ := rfl
@[simp] theorem takeWord_cs (rx : BytePair) (n : Nat) (s : State) : (takeWord rx n s).cs = s.cs := rfl
@[simp] theorem takeWord_lastStatus (rx : BytePair) (n : Nat) (s : State) : (takeWord rx n s).lastStatus = s.lastStatus := rfl
@[simp] theorem takeWord_firstFail (rx : BytePair) (n : Nat) (s : State) : (takeWord rx n s).firstFail = s.firstFail := rfl
@[simp] theorem takeWord_fault (rx : BytePair) (n : Nat) (s : State) : (takeWord rx n s).fault = s.fault := rfl
@[simp] theorem takeWord_cmds (rx : BytePair) (n : Nat) (s : State) : (takeWord rx n s).cmds = s.cmds := rfl
@[simp] theorem takeWord_accepted (rx : BytePair) (n : Nat) (s : State) : (takeWord rx n s).accepted = s.accepted := rfl
@[simp] theorem takeWord_trace (rx : BytePair) (n : Nat) (s : State) : (takeWord rx n s).trace = s.trace := rfl
@[simp] theorem takeWord_txIn (rx : BytePair) (n : Nat) (s : State) : (takeWord rx n s).txIn = s.txIn := rfl
@[simp] theorem takeWord_transport (rx : BytePair) (n : Nat) (s : State) : (takeWord rx n s).transport = s.transport := rfl
@[simp] theorem takeWord_settleEnds (rx : BytePair) (n : Nat) (s : State) : (takeWord rx n s).settleEnds = s.settleEnds := rfl
@[simp] theorem takeWord_writeCycle (rx : BytePair) (n : Nat) (s : State) : (takeWord rx n s).writeCycle = s.writeCycle := rfl
@[simp] theorem takeWord_deviceProfile (rx : BytePair) (n : Nat) (s : State) : (takeWord rx n s).deviceProfile = s.deviceProfile := rfl
@[simp] theorem takeWord_draws (rx : BytePair) (n : Nat) (s : State) : (takeWord rx n s).draws = s.draws := rfl
@[simp] theorem takeWord_mem (rx : BytePair) (n : Nat) (s : State) : (takeWord rx n s).mem = s.mem := rfl
@[simp] theorem takeWord_st (rx : BytePair) (n : Nat) (s : State) : (takeWord rx n s).st = s.st.next := rfl
@[simp] theorem takeWord_rxQ (rx : BytePair) (n : Nat) (s : State) : (takeWord rx n s).rxQ = rx := rfl
@[simp] theorem takeWord_nxQ (rx : BytePair) (n : Nat) (s : State) : (takeWord rx n s).nxQ = n := rfl
@[simp] theorem takeWord_responses (rx : BytePair) (n : Nat) (s : State) : (takeWord rx n s).responses = s.responses ++ [⟨s.resultStatus, some (wordAssemble rx)⟩] := rfl

/-! ## abort -/

@[simp] theorem State.abort_cfg (s : State) : s.abort.cfg = s.cfg := rfl
@[simp] theorem State.abort_st (s : State) : s.abort.st = s.st := rfl
@[simp] theorem State.abort_opQ (s : State) : s.abort.opQ = s.opQ := rfl
@[simp] theorem State.abort_addrQ (s : State) : s.abort.addrQ = s.addrQ := rfl
@[simp] theorem State.abort_dataQ (s : State) : s.abort.dataQ = s.dataQ := rfl
@[simp] theorem State.abort_cs (s : State) : s.abort.cs = s.cs := rfl
@[simp] theorem State.abort_rxQ (s : State) : s.abort.rxQ = s.rxQ := rfl
@[simp] theorem State.abort_nxQ (s : State) : s.abort.nxQ = s.nxQ := rfl
@[simp] theorem State.abort_lastStatus (s : State) : s.abort.lastStatus = s.lastStatus := rfl
@[simp] theorem State.abort_firstFail (s : State) : s.abort.firstFail = s.firstFail := rfl
@[simp] theorem State.abort_cmds (s : State) : s.abort.cmds = s.cmds := rfl
@[simp] theorem State.abort_responses (s : State) : s.abort.responses = s.responses := rfl
@[simp] theorem State.abort_accepted (s : State) : s.abort.accepted = s.accepted := rfl
@[simp] theorem State.abort_trace (s : State) : s.abort.trace = s.trace := rfl
@[simp] theorem State.abort_txIn (s : State) : s.abort.txIn = s.txIn := rfl
@[simp] theorem State.abort_transport (s : State) : s.abort.transport = s.transport := rfl
@[simp] theorem State.abort_settleEnds (s : State) : s.abort.settleEnds = s.settleEnds := rfl
@[simp] theorem State.abort_writeCycle (s : State) : s.abort.writeCycle = s.writeCycle := rfl
@[simp] theorem State.abort_deviceProfile (s : State) : s.abort.deviceProfile = s.deviceProfile := rfl
@[simp] theorem State.abort_draws (s : State) : s.abort.draws = s.draws := rfl
@[simp] theorem State.abort_fault (s : State) : s.abort.fault = addFault (.aborted s.st) s.fault := rfl
@[simp] theorem State.abort_mem (s : State) : s.abort.mem = [] := rfl

/-! ## newSession: an abort in a transaction, and a session begun otherwise -/

theorem State.newSession_of_inTransaction (c : SessionConfig) {s : State} (h : s.inTransaction = true) :
    s.newSession c = s.abort := if_pos h

/-- What a session begins with, whole. -/
theorem State.newSession_of_not (c : SessionConfig) {s : State} (h : s.inTransaction = false) :
    s.newSession c = { State.resetWith c with
      txIn := s.txIn, transport := s.transport, settleEnds := s.settleEnds, mem := s.memFor c
      writeCycle := s.writeCycle, deviceProfile := s.deviceProfile, draws := s.draws } := by
  simp [State.newSession, h]

@[simp] theorem State.newSession_cfg (c : SessionConfig) {s : State} (h : s.inTransaction = false) : (s.newSession c).cfg = c :=
  congrArg State.cfg (State.newSession_of_not c h)
@[simp] theorem State.newSession_st (c : SessionConfig) {s : State} (h : s.inTransaction = false) : (s.newSession c).st = .idle :=
  congrArg State.st (State.newSession_of_not c h)
@[simp] theorem State.newSession_opQ (c : SessionConfig) {s : State} (h : s.inTransaction = false) : (s.newSession c).opQ = .writeWord :=
  congrArg State.opQ (State.newSession_of_not c h)
@[simp] theorem State.newSession_addrQ (c : SessionConfig) {s : State} (h : s.inTransaction = false) : (s.newSession c).addrQ = 0 :=
  congrArg State.addrQ (State.newSession_of_not c h)
@[simp] theorem State.newSession_dataQ (c : SessionConfig) {s : State} (h : s.inTransaction = false) : (s.newSession c).dataQ = 0 :=
  congrArg State.dataQ (State.newSession_of_not c h)
@[simp] theorem State.newSession_cs (c : SessionConfig) {s : State} (h : s.inTransaction = false) : (s.newSession c).cs = .deasserted :=
  congrArg State.cs (State.newSession_of_not c h)
@[simp] theorem State.newSession_rxQ (c : SessionConfig) {s : State} (h : s.inTransaction = false) : (s.newSession c).rxQ = ⟨0, 0⟩ :=
  congrArg State.rxQ (State.newSession_of_not c h)
@[simp] theorem State.newSession_nxQ (c : SessionConfig) {s : State} (h : s.inTransaction = false) : (s.newSession c).nxQ = 0 :=
  congrArg State.nxQ (State.newSession_of_not c h)
@[simp] theorem State.newSession_lastStatus (c : SessionConfig) {s : State} (h : s.inTransaction = false) : (s.newSession c).lastStatus = .success :=
  congrArg State.lastStatus (State.newSession_of_not c h)
@[simp] theorem State.newSession_firstFail (c : SessionConfig) {s : State} (h : s.inTransaction = false) : (s.newSession c).firstFail = none :=
  congrArg State.firstFail (State.newSession_of_not c h)
@[simp] theorem State.newSession_fault (c : SessionConfig) {s : State} (h : s.inTransaction = false) : (s.newSession c).fault = [] :=
  congrArg State.fault (State.newSession_of_not c h)
@[simp] theorem State.newSession_cmds (c : SessionConfig) {s : State} (h : s.inTransaction = false) : (s.newSession c).cmds = [] :=
  congrArg State.cmds (State.newSession_of_not c h)
@[simp] theorem State.newSession_responses (c : SessionConfig) {s : State} (h : s.inTransaction = false) : (s.newSession c).responses = [] :=
  congrArg State.responses (State.newSession_of_not c h)
@[simp] theorem State.newSession_accepted (c : SessionConfig) {s : State} (h : s.inTransaction = false) : (s.newSession c).accepted = 0 :=
  congrArg State.accepted (State.newSession_of_not c h)
@[simp] theorem State.newSession_trace (c : SessionConfig) {s : State} (h : s.inTransaction = false) : (s.newSession c).trace = [] :=
  congrArg State.trace (State.newSession_of_not c h)
@[simp] theorem State.newSession_mem (c : SessionConfig) {s : State} (h : s.inTransaction = false) : (s.newSession c).mem = s.memFor c :=
  congrArg State.mem (State.newSession_of_not c h)
@[simp] theorem State.newSession_txIn (c : SessionConfig) (s : State) : (s.newSession c).txIn = s.txIn := by
  unfold State.newSession; split <;> rfl
@[simp] theorem State.newSession_transport (c : SessionConfig) (s : State) : (s.newSession c).transport = s.transport := by
  unfold State.newSession; split <;> rfl
@[simp] theorem State.newSession_settleEnds (c : SessionConfig) (s : State) : (s.newSession c).settleEnds = s.settleEnds := by
  unfold State.newSession; split <;> rfl
@[simp] theorem State.newSession_writeCycle (c : SessionConfig) (s : State) : (s.newSession c).writeCycle = s.writeCycle := by
  unfold State.newSession; split <;> rfl
@[simp] theorem State.newSession_deviceProfile (c : SessionConfig) (s : State) : (s.newSession c).deviceProfile = s.deviceProfile := by
  unfold State.newSession; split <;> rfl
@[simp] theorem State.newSession_draws (c : SessionConfig) (s : State) : (s.newSession c).draws = s.draws := by
  unfold State.newSession; split <;> rfl


/-! ## resetWith -/

@[simp] theorem State.resetWith_cfg (c : SessionConfig) : (State.resetWith c).cfg = c := rfl
@[simp] theorem State.resetWith_st (c : SessionConfig) : (State.resetWith c).st = .idle := rfl
@[simp] theorem State.resetWith_opQ (c : SessionConfig) : (State.resetWith c).opQ = .writeWord := rfl
@[simp] theorem State.resetWith_addrQ (c : SessionConfig) : (State.resetWith c).addrQ = 0 := rfl
@[simp] theorem State.resetWith_dataQ (c : SessionConfig) : (State.resetWith c).dataQ = 0 := rfl
@[simp] theorem State.resetWith_cs (c : SessionConfig) : (State.resetWith c).cs = .deasserted := rfl
@[simp] theorem State.resetWith_rxQ (c : SessionConfig) : (State.resetWith c).rxQ = ⟨0, 0⟩ := rfl
@[simp] theorem State.resetWith_nxQ (c : SessionConfig) : (State.resetWith c).nxQ = 0 := rfl
@[simp] theorem State.resetWith_lastStatus (c : SessionConfig) : (State.resetWith c).lastStatus = .success := rfl
@[simp] theorem State.resetWith_firstFail (c : SessionConfig) : (State.resetWith c).firstFail = none := rfl
@[simp] theorem State.resetWith_fault (c : SessionConfig) : (State.resetWith c).fault = [] := rfl
@[simp] theorem State.resetWith_cmds (c : SessionConfig) : (State.resetWith c).cmds = [] := rfl
@[simp] theorem State.resetWith_responses (c : SessionConfig) : (State.resetWith c).responses = [] := rfl
@[simp] theorem State.resetWith_accepted (c : SessionConfig) : (State.resetWith c).accepted = 0 := rfl
@[simp] theorem State.resetWith_trace (c : SessionConfig) : (State.resetWith c).trace = [] := rfl
@[simp] theorem State.resetWith_txIn (c : SessionConfig) : (State.resetWith c).txIn = [] := rfl
@[simp] theorem State.resetWith_transport (c : SessionConfig) : (State.resetWith c).transport = .draws := rfl
@[simp] theorem State.resetWith_settleEnds (c : SessionConfig) : (State.resetWith c).settleEnds = true := rfl
@[simp] theorem State.resetWith_mem (c : SessionConfig) : (State.resetWith c).mem = [] := rfl
@[simp] theorem State.resetWith_writeCycle (c : SessionConfig) : (State.resetWith c).writeCycle = Config.writeCycleTime := rfl
@[simp] theorem State.resetWith_deviceProfile (c : SessionConfig) : (State.resetWith c).deviceProfile = c.profile := rfl
@[simp] theorem State.resetWith_draws (c : SessionConfig) : (State.resetWith c).draws = 0 := rfl

end Sys2Proof.Machine
end

