-- ==== Sys2Proof/Laws/Device.lean ====
section
/-! SUPPORT. The reference device's store: every memory operation keeps the canonical form, and where it reads. -/

namespace Sys2Proof.Machine

/-- Every listed address is above `a`. -/
abbrev Memory.above (a : Nat) (m : List Host.Cell) : Prop := ∀ c ∈ m, a < c.1

theorem Memory.wf_cons (a : Nat) (b : Byte) (m : List Host.Cell) :
    Memory.wf ((a, b) :: m) = true ↔ Memory.above a m ∧ Memory.wf m = true := by
  induction m generalizing a b with
  | nil => simp [Memory.wf, Memory.above]
  | cons c rest ih =>
    obtain ⟨k, v⟩ := c
    simp only [Memory.wf, Bool.and_eq_true, decide_eq_true_eq, Memory.above, List.mem_cons, forall_eq_or_imp]
    constructor
    · rintro ⟨hak, hw⟩
      have hk := ((ih k v).mp hw).1
      exact ⟨⟨hak, fun c hc => hak.trans (hk c hc)⟩, hw⟩
    · rintro ⟨⟨hak, -⟩, hw⟩
      exact ⟨hak, hw⟩

/-- A write lists the address written and nothing else new. -/
theorem mem_memWrite {m : List Host.Cell} {a : Nat} {b : Byte} {c : Host.Cell} (h : c ∈ memWrite m a b) :
    c = (a, b) ∨ c ∈ m := by
  induction m with
  | nil => simpa [memWrite] using h
  | cons e rest ih =>
    obtain ⟨k, v⟩ := e
    simp only [memWrite] at h
    split at h
    · simpa using h
    · split at h
      · rcases List.mem_cons.mp h with h | h
        · exact .inl h
        · exact .inr (List.mem_cons_of_mem _ h)
      · rcases List.mem_cons.mp h with h | h
        · exact .inr (h ▸ List.mem_cons_self)
        · exact (ih h).imp_right (List.mem_cons_of_mem _)

/-- One write keeps the canonical form. -/
theorem memWrite_wf {m : List Host.Cell} (h : Memory.wf m = true) (a : Nat) (b : Byte) :
    Memory.wf (memWrite m a b) = true := by
  induction m with
  | nil => rfl
  | cons e rest ih =>
    obtain ⟨k, v⟩ := e
    obtain ⟨hk, hr⟩ := (Memory.wf_cons k v rest).mp h
    simp only [memWrite]
    split
    · next hlt =>
      refine (Memory.wf_cons _ _ _).mpr ⟨fun c hc => ?_, h⟩
      rcases List.mem_cons.mp hc with rfl | hc
      · exact hlt
      · exact hlt.trans (hk c hc)
    · split
      · next heq => exact (Memory.wf_cons _ _ _).mpr ⟨heq ▸ hk, hr⟩
      · next hnlt hne =>
        refine (Memory.wf_cons _ _ _).mpr ⟨fun c hc => ?_, ih hr⟩
        rcases mem_memWrite hc with rfl | hc
        · show k < a; omega
        · exact hk c hc

/-- A word write keeps the canonical form. -/
theorem memWriteWord_wf {m : List Host.Cell} (h : Memory.wf m = true) (a : Nat) (bytes : BytePair) :
    Memory.wf (memWriteWord m a bytes) = true := memWrite_wf (memWrite_wf h _ _) _ _

/-- The mock keeps the canonical form. -/
theorem deviceStore_wf {m : List Host.Cell} (h : Memory.wf m = true) (p : Profile) (trace : List TraceEntry)
    (req : Request) : Memory.wf (deviceStore p trace req m) = true := by
  unfold deviceStore
  split
  · exact memWriteWord_wf h _ _
  · exact h

/-- What a byte read gives after a byte write. -/
theorem memRead_memWrite (m : List Host.Cell) (a : Nat) (b : Byte) (k : Nat) :
    memRead (memWrite m a b) k = if a = k then some b else memRead m k := by
  induction m with
  | nil => rfl
  | cons e rest ih =>
    obtain ⟨j, v⟩ := e
    simp only [memWrite]
    split
    · rfl
    · split
      · next h => subst h; simp only [memRead]; split <;> rfl
      · simp only [memRead, ih]
        split <;> split <;> first | rfl | omega

/-- Only a write that closes a frame stores. -/
theorem deviceStore_of_open (u : TxUnit) (n : Nat) (b : List Byte) (acs : Bool) (p : Profile) (trace : List TraceEntry)
    (m : List Host.Cell) : deviceStore p trace (.write u n b acs false) m = m := rfl

theorem deviceStore_of_read (n : Nat) (dcs : Bool) (p : Profile) (trace : List TraceEntry) (m : List Host.Cell) :
    deviceStore p trace (.read n dcs) m = m := rfl

/-- The open frame, one request later. -/
theorem openFrame_append (trace : List TraceEntry) (e : TraceEntry) :
    openFrame (trace ++ [e]) = if e.req.acs then e.req.wireBits else openFrame trace ++ e.req.wireBits := by
  simp [openFrame]

/-- The device of R59 keeps the canonical form. -/
theorem settleWrite_wf {s : State} (h : Memory.wf s.mem = true) : Memory.wf (settleWrite s).mem = true := by
  rw [settleWrite_mem]
  split
  · split
    · exact memWriteWord_wf h _ _
    · rfl
  · exact h

/-- A read is answered with a byte list of the requested length. -/
@[simp] theorem received_length (s : State) (ans : TxAnswer) (n : Nat) : (s.received ans n).length = n := by
  simp [State.received]; omega

/-- The bytes the answer does not list are the data line's. -/
theorem received_of_nil (s : State) {ans : TxAnswer} (h : ans.rx = []) (n : Nat) : s.received ans n =
    (List.range n).map (fun k => (s.deviceByte? ans n k).getD (Config.rxByte s.draws k)) := by
  have := clockIn_bufferBits ((List.range n).map (fun k => (s.deviceByte? ans n k).getD (Config.rxByte s.draws k)))
  simpa [State.received, State.lineBits, h] using this

/-- No device gives a byte of a failed or short read (R98, I7). -/
theorem deviceByte?_of_not_full (s : State) {ans : TxAnswer} {n : Nat} (h : fullRead ans n = false) (k : Nat) :
    s.deviceByte? ans n k = none := by
  unfold State.deviceByte?; split <;> simp [State.readVisible, h]

/-- The device of R59 gives no byte in a session that does not match it (R162). -/
theorem deviceByte?_of_mismatch {s : State} (ht : s.transport = .device) (h : s.profileMatches = false) (ans : TxAnswer)
    (n k : Nat) : s.deviceByte? ans n k = none := by
  simp [State.deviceByte?, State.readVisible, ht, h]

/-- The bytes that neither the answer nor a device gives are draws (R27). -/
theorem received_of_draws {s : State} {ans : TxAnswer} {n : Nat} (h : ans.rx = [])
    (hd : ∀ k, s.deviceByte? ans n k = none) :
    s.received ans n = (List.range n).map (fun k => Config.rxByte s.draws k) := by
  simp [received_of_nil s h, hd]

/-- An answer that lists every byte gives them. -/
theorem received_of_listed (s : State) {ans : TxAnswer} {n : Nat} (h : n ≤ ans.rx.length) :
    s.received ans n = ans.rx.take n := by
  simp [State.received, h]

/-- The two bytes of a read of two are the list received. -/
theorem received_two (s : State) (ans : TxAnswer) :
    s.received ans 2 = [(pairOf (s.received ans 2)).b0, (pairOf (s.received ans 2)).b1] := by
  have h := received_length s ans 2
  match hr : s.received ans 2 with
  | [] => simp [hr] at h
  | [_] => simp [hr] at h
  | [_, _] => rfl
  | _ :: _ :: _ :: _ => simp [hr] at h

/-- The mock looks at the requests of a trace only, not at what answered them. -/
theorem openFrame_congr {t u : List TraceEntry} (h : t.map (·.req) = u.map (·.req)) : openFrame t = openFrame u := by
  have key : ∀ t : List TraceEntry, openFrame t =
      (t.map (·.req)).foldl (fun acc r => if r.acs then r.wireBits else acc ++ r.wireBits) [] := by
    intro t; simp [openFrame, List.foldl_map]
  rw [key, key, h]

end Sys2Proof.Machine
end

