-- ==== Sys2Proof/Laws/Ops.lean ====
section
/-! SUPPORT. What each shared operation can do, said once: cite these instead of unfolding. -/

namespace Sys2Proof.Machine

/-- Everything `issue` can do: raise F_CS_FRAME, wait for the transport, or issue and go on. -/
theorem issue_cases (req : Request) (done : TxAnswer → State → State) (s : State) :
    ((csCheck req s.cs).isSome ∧ issue req done s = raiseFault (.csFrame req s.cs) s) ∨
    (csCheck req s.cs = none ∧ s.answer? = none ∧ issue req done s = s) ∨
    (csCheck req s.cs = none ∧ ∃ ans, s.answer? = some ans ∧
      issue req done s = done ans (issueAnswered req ans s)) := by
  unfold issue
  split
  · next h => exact .inl ⟨by simp [h], rfl⟩
  · next h =>
    split
    · next ha => exact .inr (.inl ⟨h, ha, rfl⟩)
    · next ans ha => exact .inr (.inr ⟨h, ans, ha, rfl⟩)

theorem issue_answered {req : Request} {s : State} {ans : TxAnswer} (hc : csCheck req s.cs = none)
    (ha : s.answer? = some ans) (done : TxAnswer → State → State) :
    issue req done s = done ans (issueAnswered req ans s) := by
  simp [issue, hc, ha]

theorem issue_waits {req : Request} {s : State} (hc : csCheck req s.cs = none) (ha : s.answer? = none)
    (done : TxAnswer → State → State) : issue req done s = s := by
  simp [issue, hc, ha]

theorem issue_raises {req : Request} {s : State} {v : CsViolation} (hc : csCheck req s.cs = some v)
    (done : TxAnswer → State → State) : issue req done s = raiseFault (.csFrame req s.cs) s := by
  simp [issue, hc]

/-- The first fault of a run is the only one in the set. -/
theorem addFault_nil (f : BlockFault) : addFault f [] = [f] := rfl

/-- Raising a fault takes none away. -/
theorem mem_addFault_of_mem {f g : BlockFault} {fs : List BlockFault} (h : g ∈ fs) : g ∈ addFault f fs := by
  unfold addFault; split
  · exact h
  · exact List.mem_append_left _ h

/-- A raised fault set is never empty. -/
theorem addFault_ne_nil (f : BlockFault) (fs : List BlockFault) : addFault f fs ≠ [] := by
  unfold addFault; split
  · next h => rintro rfl; simp at h
  · simp

/-- The CS checks, read backwards: a request passes exactly in the view its flags ask for. -/
theorem csCheck_eq_none_iff (req : Request) (cs : CsView) :
    csCheck req cs = none ↔
      match req with
      | .write _ _ _ acs _ => cs = if acs then .deasserted else .asserted
      | .read _ _ => cs = .asserted
      | .delay _ => True := by
  cases req with
  | write u l b acs dcs => cases acs <;> cases cs <;> simp [csCheck]
  | read n dcs => cases cs <;> simp [csCheck]
  | delay t => simp [csCheck]

/-- FIRST_FAILURE returns SUCCESS exactly when every call of the transaction did (R131). -/
theorem firstFailureOf_eq_success {l : List Status} : firstFailureOf l = .success ↔ ∀ x ∈ l, x = .success := by
  induction l with
  | nil => simp [firstFailureOf]
  | cons x xs ih => by_cases h : x = .success <;> simp [firstFailureOf, h, ih]

/-- With SUCCESS the host may trust the data, and otherwise none. -/
@[simp] theorem Response.trusted?_success (d : Option Word) : (Response.mk .success d).trusted? = d := rfl
@[simp] theorem Response.trusted?_none (x : Status) : (Response.mk x none).trusted? = none := ite_self _
theorem Response.trusted?_of_ne {r : Response} (h : r.status ≠ .success) : r.trusted? = none := if_neg h

/-- Recording a status keeps `first_fail` a failure. -/
theorem recordFailure_ne_success {f : Option Status} (h : f ≠ some .success) (x : Status) :
    recordFailure x f ≠ some .success := by
  unfold recordFailure
  split
  · exact h
  · split
    · simp
    · next hx => simpa using hx

/-- Everything acceptance can do: raise F_ADDR_RANGE, or take the command with an address in range. -/
theorem accept_cases (op : HostOp) (addr : BitVec 16) (data : Word) (s : State) :
    (2 ^ s.cfg.profile.addrBits ≤ addr.toNat ∧ s.cfg.addrPolicy = .refuse ∧
      accept op addr data s = raiseFault (.addrRange addr) { s with opQ := op }) ∨
    (∃ a, addrPolicy s.cfg addr = .ok a ∧ a.toNat < 2 ^ s.cfg.profile.addrBits ∧
      accept op addr data s = { s with
        opQ := op
        addrQ := a
        dataQ := if op = .writeWord then data else s.dataQ
        firstFail := none
        st := op.firstState
        accepted := s.accepted + 1 }) := by
  have hpow : 2 ^ s.cfg.profile.addrBits ≤ 256 := by cases s.cfg.profile <;> decide
  have hpos : 0 < 2 ^ s.cfg.profile.addrBits := Nat.two_pow_pos _
  by_cases h : addr.toNat < 2 ^ s.cfg.profile.addrBits
  · refine .inr ⟨addr.setWidth 8, by simp [addrPolicy, h], ?_, by simp [accept, addrPolicy, h]⟩
    rw [BitVec.toNat_setWidth, Nat.mod_eq_of_lt (by omega)]
    exact h
  · cases hp : s.cfg.addrPolicy with
    | refuse => exact .inl ⟨Nat.le_of_not_lt h, rfl, by simp [accept, addrPolicy, h, hp]⟩
    | truncate =>
      refine .inr ⟨BitVec.ofNat 8 (addr.toNat % 2 ^ s.cfg.profile.addrBits), by simp [addrPolicy, h, hp], ?_,
        by simp [accept, addrPolicy, h, hp]⟩
      have := Nat.mod_lt addr.toNat hpos
      rw [BitVec.toNat_ofNat, Nat.mod_eq_of_lt (by omega)]
      exact this

/-- `cmd_ready`, as facts about the registers. -/
theorem cmdReady_iff (s : State) : s.cmdReady = true ↔ s.st = .idle ∧ s.fault = [] := by
  simp [State.cmdReady, State.busy, State.faulted, List.isEmpty_iff]

theorem faulted_iff (s : State) : s.faulted = true ↔ s.fault ≠ [] := by
  simp [State.faulted]

end Sys2Proof.Machine
end

