-- ==== Sys2Proof/Laws/PerInstr.lean ====
section
/-! SUPPORT. Statements made per instruction, about the instruction as bits: how long each one's frame is
(30_encoding.md R83, 40_codec.md R103). -/

namespace Sys2Proof.Laws.FrameLength

/-- The bits the block drives in the frame of a command word: `C`, and the operand bits after it. A host command has
no frame of its own. -/
def Statement (i : Instr) : Prop :=
  match i with
  | .ewenP6 => i.frameBits.length = 9
  | .ewdsP6 => i.frameBits.length = 9
  | .writeP6 _ _ => i.frameBits.length = 25
  | .readP6 _ => i.frameBits.length = 10
  | .ewenP7 => i.frameBits.length = 10
  | .ewdsP7 => i.frameBits.length = 10
  | .writeP7 _ _ => i.frameBits.length = 26
  | .readP7 _ => i.frameBits.length = 11
  | .ewenP8 => i.frameBits.length = 11
  | .ewdsP8 => i.frameBits.length = 11
  | .writeP8 _ _ => i.frameBits.length = 27
  | .readP8 _ => i.frameBits.length = 12
  | .writeWord _ _ => i.frameBits.length = 0
  | .readWord _ => i.frameBits.length = 0

theorem ewenP6 : Statement .ewenP6 := rfl
theorem ewdsP6 : Statement .ewdsP6 := rfl
theorem writeP6 (a : BitVec 6) (d : Word) : Statement (.writeP6 a d) := by
  simp [Statement, Instr.frameBits, encode, encodeWrite, Profile.addrBits]
theorem readP6 (a : BitVec 6) : Statement (.readP6 a) := by
  simp [Statement, Instr.frameBits, encode, encodeRead, Profile.addrBits]
theorem ewenP7 : Statement .ewenP7 := rfl
theorem ewdsP7 : Statement .ewdsP7 := rfl
theorem writeP7 (a : BitVec 7) (d : Word) : Statement (.writeP7 a d) := by
  simp [Statement, Instr.frameBits, encode, encodeWrite, Profile.addrBits]
theorem readP7 (a : BitVec 7) : Statement (.readP7 a) := by
  simp [Statement, Instr.frameBits, encode, encodeRead, Profile.addrBits]
theorem ewenP8 : Statement .ewenP8 := rfl
theorem ewdsP8 : Statement .ewdsP8 := rfl
theorem writeP8 (a : BitVec 8) (d : Word) : Statement (.writeP8 a d) := by
  simp [Statement, Instr.frameBits, encode, encodeWrite, Profile.addrBits]
theorem readP8 (a : BitVec 8) : Statement (.readP8 a) := by
  simp [Statement, Instr.frameBits, encode, encodeRead, Profile.addrBits]
theorem writeWord (addr : BitVec 16) (data : Word) : Statement (.writeWord addr data) := rfl
theorem readWord (addr : BitVec 16) : Statement (.readWord addr) := rfl

end Sys2Proof.Laws.FrameLength
end

