-- ==== Sys2Proof/Laws/Step.lean ====
section
/-! SUPPORT. What a step does in each sequencer state, said once: one lemma per state, and the inversion lemma
`step_cases` over all of them. -/

namespace Sys2Proof.Machine

/-- The address byte depends on the low `A` bits only (40_codec.md R105). -/
theorem addrByte_mod (p : Profile) (a : Nat) : addrByte p (a % 2 ^ p.addrBits) = addrByte p a := by
  apply BitVec.eq_of_toNat_eq
  cases p <;> simp [addrByte, Profile.addrBits, Nat.shiftLeft_eq] <;> omega

theorem encAddr_mod (p : Profile) (a : Nat) (s : State) : encAddr p (a % 2 ^ p.addrBits) s = encAddr p a s := by
  simp [encAddr, reqAddr, addrByte_mod]

/-! ## The meanings of a session's own command words -/

theorem exec_ewenOf {s : State} (hf : s.fault = []) : exec (Instr.ewenOf s.cfg.profile) s = runEwen s.cfg.profile s := by
  cases hp : s.cfg.profile <;>
    simp [Instr.ewenOf, exec, execEwenP6, execEwenP7, execEwenP8, asFrameOf, State.faulted, hf, hp]

theorem exec_ewdsOf {s : State} (hf : s.fault = []) : exec (Instr.ewdsOf s.cfg.profile) s = runEwds s.cfg.profile s := by
  cases hp : s.cfg.profile <;>
    simp [Instr.ewdsOf, exec, execEwdsP6, execEwdsP7, execEwdsP8, asFrameOf, State.faulted, hf, hp]

theorem exec_writeOf {s : State} (hf : s.fault = []) (a : Nat) (d : Word) :
    exec (Instr.writeOf s.cfg.profile a d) s = runWrite s.cfg.profile (a % 2 ^ s.cfg.profile.addrBits) d s := by
  cases hp : s.cfg.profile <;>
    simp [Instr.writeOf, exec, execWriteP6, execWriteP7, execWriteP8, asFrameOf, State.faulted, hf, hp, Profile.addrBits]

theorem exec_readOf {s : State} (hf : s.fault = []) (a : Nat) :
    exec (Instr.readOf s.cfg.profile a) s = runRead s.cfg.profile (a % 2 ^ s.cfg.profile.addrBits) s := by
  cases hp : s.cfg.profile <;>
    simp [Instr.readOf, exec, execReadP6, execReadP7, execReadP8, asFrameOf, State.faulted, hf, hp, Profile.addrBits]

/-! ## One lemma per sequencer state -/

theorem step_faulted {s : State} (h : s.faulted = true) : step s = .next s := by simp [step, fetch, h]

theorem faulted_false {s : State} (hf : s.fault = []) : s.faulted = false := by simp [State.faulted, hf]

theorem step_await {s : State} (hf : s.fault = []) (hs : s.st = .idle) (hc : s.cmds = []) : step s = .next s := by
  simp [step, fetch, faulted_false hf, hs, hc]

/-- In IDLE a presented record is accepted, or raises F_ADDR_RANGE. -/
theorem step_present {s : State} (hf : s.fault = []) (hs : s.st = .idle) {r : BitVec 33} {rest : List (BitVec 33)}
    (hc : s.cmds = r :: rest) :
    step s = .next (accept (if r[32] then .readWord else .writeWord) (r.extractLsb' 16 16)
      (if r[32] then 0 else r.extractLsb' 0 16) { s with cmds := rest }) := by
  cases hop : r[32] <;>
    simp [step, fetch, State.taken, decodeHost, exec, execReadWord, execWriteWord, present, State.cmdReady, State.busy,
      State.faulted, hf, hs, hc, hop]

theorem step_wEwen {s : State} (hf : s.fault = []) (hs : s.st = .wEwen) :
    step s = .next (encEwen s.cfg.profile s) := by
  simp [step, fetch, State.taken, faulted_false hf, hs, exec_ewenOf hf, runEwen]

theorem step_wOp {s : State} (hf : s.fault = []) (hs : s.st = .wOp) : step s = .next (encWriteOp s) := by
  simp [step, fetch, State.taken, faulted_false hf, hs, exec_writeOf hf, runWrite]

theorem step_wAddr {s : State} (hf : s.fault = []) (hs : s.st = .wAddr) :
    step s = .next (encAddr s.cfg.profile s.addrQ.toNat s) := by
  simp [step, fetch, State.taken, faulted_false hf, hs, exec_writeOf hf, runWrite, encAddr_mod]

theorem step_wData {s : State} (hf : s.fault = []) (hs : s.st = .wData) : step s = .next (encData s.dataQ s) := by
  simp [step, fetch, State.taken, faulted_false hf, hs, exec_writeOf hf, runWrite]

theorem step_wStrbOn {s : State} (hf : s.fault = []) (hs : s.st = .wStrbOn) : step s = .next (encStrobeOn s) := by
  simp [step, fetch, faulted_false hf, hs]

theorem step_wSettle {s : State} (hf : s.fault = []) (hs : s.st = .wSettle) : step s = .next (settleDelay s) := by
  simp [step, fetch, faulted_false hf, hs]

theorem step_wStrbOff {s : State} (hf : s.fault = []) (hs : s.st = .wStrbOff) : step s = .next (encStrobeOff s) := by
  simp [step, fetch, faulted_false hf, hs]

theorem step_wEwds {s : State} (hf : s.fault = []) (hs : s.st = .wEwds) :
    step s = .next (encEwds s.cfg.profile s) := by
  simp [step, fetch, State.taken, faulted_false hf, hs, exec_ewdsOf hf, runEwds]

theorem step_rOp {s : State} (hf : s.fault = []) (hs : s.st = .rOp) : step s = .next (encReadOp s) := by
  simp [step, fetch, State.taken, faulted_false hf, hs, exec_readOf hf, runRead]

theorem step_rAddr {s : State} (hf : s.fault = []) (hs : s.st = .rAddr) :
    step s = .next (encAddr s.cfg.profile s.addrQ.toNat s) := by
  simp [step, fetch, State.taken, faulted_false hf, hs, exec_readOf hf, runRead, encAddr_mod]

theorem step_rDummy {s : State} (hf : s.fault = []) (hs : s.st = .rDummy) : step s = .next (encDummy s) := by
  simp [step, fetch, State.taken, faulted_false hf, hs, exec_readOf hf, runRead]

theorem step_rData {s : State} (hf : s.fault = []) (hs : s.st = .rData) : step s = .next (decRead s) := by
  simp [step, fetch, State.taken, faulted_false hf, hs, exec_readOf hf, runRead]

/-- Everything a step can do: nothing; take the host's next command; or issue the request of the state it is in, and
then go on. -/
theorem step_cases (s : State) :
    (step s = .next s) ∨
    (s.fault = [] ∧ s.st = .idle ∧ ∃ r rest op addr data, s.cmds = r :: rest ∧
      step s = .next (accept op addr data { s with cmds := rest })) ∨
    (s.fault = [] ∧ s.st = .wSettle ∧ step s = .next (settleDelay s)) ∨
    (s.fault = [] ∧ s.st ≠ .idle ∧ s.st ≠ .wSettle ∧ ∃ req, s.request? = some req ∧
      ((s.st ≠ .wEwds ∧ s.st ≠ .rData ∧ step s = .next (issueThenAdvance req s)) ∨
        (s.st = .wEwds ∧ step s = .next (issue req (fun _ t => complete none (settleWrite t)) s)) ∨
        (s.st = .rData ∧ step s = .next (issue req
          (fun ans t => takeWord (pairOf (s.received ans 2)) ans.nXfer t) s)))) := by
  by_cases hfault : s.faulted = true
  · exact .inl (step_faulted hfault)
  have hf : s.fault = [] := by simpa [faulted_iff] using hfault
  by_cases hi : s.st = .idle
  · cases hc : s.cmds with
    | nil => exact .inl (step_await hf hi hc)
    | cons r rest => exact .inr (.inl ⟨hf, hi, r, rest, _, _, _, rfl, step_present hf hi hc⟩)
  cases hs : s.st with
  | idle => exact absurd hs hi
  | wEwen => exact .inr (.inr (.inr ⟨hf, by simp, by simp, _, by simp [State.request?, hs], .inl ⟨by simp, by simp, step_wEwen hf hs⟩⟩))
  | wOp => exact .inr (.inr (.inr ⟨hf, by simp, by simp, _, by simp [State.request?, hs], .inl ⟨by simp, by simp, step_wOp hf hs⟩⟩))
  | wAddr => exact .inr (.inr (.inr ⟨hf, by simp, by simp, _, by simp [State.request?, hs], .inl ⟨by simp, by simp, step_wAddr hf hs⟩⟩))
  | wData => exact .inr (.inr (.inr ⟨hf, by simp, by simp, _, by simp [State.request?, hs], .inl ⟨by simp, by simp, step_wData hf hs⟩⟩))
  | wStrbOn => exact .inr (.inr (.inr ⟨hf, by simp, by simp, _, by simp [State.request?, hs], .inl ⟨by simp, by simp, step_wStrbOn hf hs⟩⟩))
  | wSettle => exact .inr (.inr (.inl ⟨hf, rfl, step_wSettle hf hs⟩))
  | wStrbOff => exact .inr (.inr (.inr ⟨hf, by simp, by simp, _, by simp [State.request?, hs], .inl ⟨by simp, by simp, step_wStrbOff hf hs⟩⟩))
  | wEwds => exact .inr (.inr (.inr ⟨hf, by simp, by simp, _, by simp [State.request?, hs], .inr (.inl ⟨rfl, step_wEwds hf hs⟩)⟩))
  | rOp => exact .inr (.inr (.inr ⟨hf, by simp, by simp, _, by simp [State.request?, hs], .inl ⟨by simp, by simp, step_rOp hf hs⟩⟩))
  | rAddr => exact .inr (.inr (.inr ⟨hf, by simp, by simp, _, by simp [State.request?, hs], .inl ⟨by simp, by simp, step_rAddr hf hs⟩⟩))
  | rDummy => exact .inr (.inr (.inr ⟨hf, by simp, by simp, _, by simp [State.request?, hs], .inl ⟨by simp, by simp, step_rDummy hf hs⟩⟩))
  | rData => exact .inr (.inr (.inr ⟨hf, by simp, by simp, _, by simp [State.request?, hs], .inr (.inr ⟨rfl, step_rData hf hs⟩)⟩))

end Sys2Proof.Machine
end

