-- ==== Sys2Proof/Machine/TraceText.lean ====
section
/-! DEFINITION. The trace syntax of 30_encoding.md R84, "the assembler-like notation this spec uses for requests", and
the host-command syntax of R85. Nothing of the machine reads it: it is how a trace is written out. -/

namespace Sys2Proof.Machine

/-- One hexadecimal digit. -/
def hexDigit (n : Nat) : Char := ['0', '1', '2', '3', '4', '5', '6', '7', '8', '9', 'A', 'B', 'C', 'D', 'E', 'F'].getD n '?'

/-- Two digits, as the buffers of R84 show a byte. -/
def byteText (b : Byte) : List Char := [hexDigit (b.toNat / 16), hexDigit (b.toNat % 16)]

/-- A byte list, spaced: `[9F FF]`. -/
def bytesText (buf : List Byte) : List Char := '[' :: (([' '].intercalate (buf.map byteText)) ++ [']'])

/-- A numeral in base ten; every length the block uses has one or two digits. -/
def natText (n : Nat) : List Char := Nat.toDigits 10 n

/-- The `<cs>` part: `+cs` (acs=1) and `-cs` (dcs=1), in that order, or nothing. -/
def csText (acs dcs : Bool) : List Char :=
  (if acs then [' ', '+', 'c', 's'] else []) ++ (if dcs then [' ', '-', 'c', 's'] else [])

/-- One request: `W.b <len> [<bytes>] <cs>`, `W.B <len> [<bytes>] <cs>`, `R.B <n> <cs>` or `DELAY` (R84). -/
def Request.text : Request → List Char
  | .write .bits len buf acs dcs => ['W', '.', 'b', ' '] ++ natText len ++ [' '] ++ bytesText buf ++ csText acs dcs
  | .write .bytes len buf acs dcs => ['W', '.', 'B', ' '] ++ natText len ++ [' '] ++ bytesText buf ++ csText acs dcs
  | .read n dcs => ['R', '.', 'B', ' '] ++ natText n ++ csText false dcs
  | .delay _ => ['D', 'E', 'L', 'A', 'Y']

/-- A host command: `WRITE_WORD <addr>, <data>` or `READ_WORD <addr>`, with unsigned numerals (R85); none for a
command word, for which "LMS defines no assembler or mnemonic syntax" (R84). -/
def hostText : Instr → Option (List Char)
  | .writeWord a d => some ("WRITE_WORD ".toList ++ natText a.toNat ++ [',', ' '] ++ natText d.toNat)
  | .readWord a => some ("READ_WORD ".toList ++ natText a.toNat)
  | _ => none

end Sys2Proof.Machine
end

