-- ==== Sys2Proof/Tests/Slice0.lean ====
section
/-! SUPPORT. The session's own tests: ill-formed terms, decodings written out from the spec's encodings, one-step
vectors of 95_test_vectors.md, and a witness for the hypotheses of every statement that has some. -/

namespace Sys2Proof.Tests

open Sys2Proof.Machine Sys2Proof.Statements

/-! ## Small states -/

/-- An answer of the transport with a status and two bytes. -/
def ans (x : Status) (b0 b1 : Byte) : TxAnswer := ⟨x, 2, [b0, b1]⟩

/-- The SUCCESS answer of 95_test_vectors.md, with the bytes of its read vector. -/
def ok : TxAnswer := ans .success 0x34 0x12

/-- The reset block in a session of profile `p`. -/
def session (p : Profile) : State := State.resetWith { SessionConfig.standard with profile := p }

/-- A block of profile `p` in sequencer state `st` with CS view `cs` and one answer standing on the response port. -/
def at1 (p : Profile) (st : Seq) (cs : CsView) (a : TxAnswer) : State :=
  { session p with st := st, cs := cs, txIn := [a], addrQ := 42, dataQ := 0x1234 }

/-- The next state, if there is one. -/
def nextOf (o : Host.Outcome State Fault Refusal) : Option State :=
  match o with
  | .next t => some t
  | .fault _ => none
  | .refused _ => none

/-- The requests of the trace after an outcome. -/
def requestsOf (o : Host.Outcome State Fault Refusal) : Option (List Request) :=
  (nextOf o).map (fun t => t.trace.map (·.req))

/-! ## Ill-formed terms are refused (R6, R17, R46, R66, R86) -/

theorem test_profile_pair_wrong : (DeviceProfile.mk 6 10).wf = false := by decide
theorem test_profile_width_wrong : (DeviceProfile.mk 5 8).wf = false ∧ (DeviceProfile.mk 9 12).wf = false := by decide
theorem test_profile_configure_refuses : (DeviceProfile.mk 6 10).configure = none := by decide
theorem test_profile_configures : (DeviceProfile.mk 7 10).configure = some .p7 := by decide
theorem test_instr_of_other_profile : Instr.wf .p6 .ewenP7 = false ∧ Instr.wf .p7 .ewenP7 = true := by decide
theorem test_host_address_out_of_range :
    Instr.wf .p6 (.writeWord 64 1) = false ∧ Instr.wf .p6 (.readWord 64) = false ∧ Instr.wf .p6 (.readWord 63) = true := by
  decide
theorem test_request_too_many_bits : (Request.write .bits 9 [0x9F] true true).wf = false := by decide
theorem test_request_too_many_bytes : (Request.write .bytes 3 [0x34, 0x12] false true).wf = false := by decide

/-! ## Decoding: one word per constructor, its bits from R70 to R73 and R85 (95_test_vectors.md 2.1, 2.2) -/

theorem test_decode_ewenP6 : decodeTableWord 16 0b100111111 = some .ewenP6 := by decide
theorem test_decode_ewdsP6 : decodeTableWord 16 0b100000000 = some .ewdsP6 := by decide
theorem test_decode_writeP6 : decodeTableWord 16 0b101101010 = some (.writeP6 42 0) := by decide
theorem test_decode_readP6 : decodeTableWord 16 0b110101010 = some (.readP6 42) := by decide
theorem test_decode_ewenP7 : decodeTableWord 16 0b1001111111 = some .ewenP7 := by decide
theorem test_decode_ewdsP7 : decodeTableWord 16 0b1000000000 = some .ewdsP7 := by decide
theorem test_decode_writeP7 : decodeTableWord 16 0b1011010101 = some (.writeP7 85 0) := by decide
theorem test_decode_readP7 : decodeTableWord 16 0b1101010101 = some (.readP7 85) := by decide
theorem test_decode_ewenP8 : decodeTableWord 16 0b10011111111 = some .ewenP8 := by decide
theorem test_decode_ewdsP8 : decodeTableWord 16 0b10000000000 = some .ewdsP8 := by decide
theorem test_decode_writeP8 : decodeTableWord 16 0b10101011010 = some (.writeP8 0x5A 0) := by decide
theorem test_decode_readP8 : decodeTableWord 16 0b11001011010 = some (.readP8 0x5A) := by decide
theorem test_decode_writeWord :
    decodeTableWord 40 0b000000000111111110001001000110100 = some (.writeWord 0xFF 0x1234) := by decide
theorem test_decode_readWord :
    decodeTableWord 40 0b100000000111111110000000000000000 = some (.readWord 0xFF) := by decide
/-- R85: bits 15:0 of a READ_WORD record are ignored. -/
theorem test_decode_readWord_ignores_data : decodeTableWord 40 0x100FFBEEF = some (.readWord 0xFF) := by decide
/-- R86 (a) to (e), and a record of more than 33 bits. -/
theorem test_decode_refuses :
    decodeCommandWord 0x0FF = .error .notACommandWord ∧ decodeCommandWord 0x110 = .error .enableFieldMixed ∧
    decodeCommandWord 0x13E = .error .enableNotAllOnes ∧ decodeCommandWord 0x101 = .error .disableNotAllZeros ∧
    decodeCommandWord 0x1C0 = .error .opcode111 ∧ decodeFrame .p6 [false, true, true] = .error .noStartBit ∧
    decodeTableWord 40 0x200000000 = none := by decide
/-- The WRITE frame of program L3.2, `101 11111111 00110100 00010010`. -/
theorem test_decode_write_frame :
    decodeFrame .p8 ([true, false, true] ++ msbBits 0b11111111 8 ++ msbBits 0b00110100 8 ++ msbBits 0b00010010 8)
      = .ok (.writeP8 0xFF 0x1234) := by decide
/-- A dummy bit of 1 is not the block's (R78). -/
theorem test_decode_read_dummy :
    decodeFrame .p6 ([true, true, false] ++ msbBits 1 6 ++ [true]) = .error .dummyNotZero := by decide

/-! ## The bits of a read (R25, R47): the wire of 95_test_vectors.md 2.3 for 0x1234, read back -/

theorem test_clock_in :
    clockIn 2 [false, false, true, true, false, true, false, false, false, false, false, true, false, false, true, false]
      = [0x34, 0x12] := by decide
/-- A short answer: the byte it lists is the first one, and the buffer still has two. -/
theorem test_short_read : (session .p6).received ⟨.success, 1, [0x34]⟩ 2 =
    [0x34, ((session .p6).received ⟨.success, 1, [0x34]⟩ 2).getD 1 0] := by
  exact received_two (session .p6) ⟨.success, 1, [0x34]⟩
/-- R86 is silent on the strobe frame (log 21). -/
theorem test_decode_strobe : decodeFrame .p6 [] = .error .frameLength := by decide

/-! ## Requests, in the trace notation of R84 (95_test_vectors.md 2.1 to 2.4) -/

theorem test_request_texts :
    (reqEwen .p6).text = "W.b 9 [9F FF] +cs -cs".toList ∧ (reqEwds .p8).text = "W.b 11 [80 00] +cs -cs".toList ∧
    reqWriteOp.text = "W.b 3 [A0] +cs".toList ∧ reqReadOp.text = "W.b 3 [C0] +cs".toList ∧
    (reqAddr .p6 42).text = "W.b 6 [A8]".toList ∧ (reqAddr .p7 72).text = "W.b 7 [90]".toList ∧
    (reqData 0x1234).text = "W.B 2 [34 12] -cs".toList ∧ reqDummy.text = "W.b 1 [00]".toList ∧
    reqStrobeOn.text = "W.b 0 [] +cs".toList ∧ reqStrobeOff.text = "W.b 0 [] -cs".toList ∧
    reqRead.text = "R.B 2 -cs".toList := by decide

/-! ## One step of each instruction -/

/-- 2.1: P6 EWEN; 2.5: CS is deasserted after. -/
theorem test_ewenP6 : requestsOf (exec .ewenP6 (at1 .p6 .wEwen .deasserted ok))
    = some [.write .bits 9 [0x9F, 0xFF] true true] := by decide
/-- 2.5, the last row: answered IO_TIMEOUT, the view follows the flags. -/
theorem test_ewenP7_failed_call :
    (nextOf (exec .ewenP7 (at1 .p7 .wEwen .deasserted (ans .ioTimeout 0 0)))).map
      (fun t => (t.cs, t.st, t.lastStatus, t.firstFail)) = some (.deasserted, .wOp, .ioTimeout, some .ioTimeout) := by
  decide
/-- 2.5: assert while asserted is F_CS_FRAME, not issued. -/
theorem test_ewenP8_while_asserted :
    (nextOf (exec .ewenP8 (at1 .p8 .wEwen .asserted ok))).map (fun t => (t.fault, t.trace, t.st))
      = some ([.csFrame (.write .bits 11 [0x9F, 0xFF] true true) .asserted], [], .wEwen) := by decide
/-- 2.6, row 2 (T S S S S S S) under FIRST_FAILURE: the last step returns T. -/
theorem test_ewdsP6_first_failure :
    (nextOf (exec .ewdsP6 { at1 .p6 .wEwds .deasserted ok with
        cfg := ⟨.p6, .refuse, .firstFailure, 0⟩, firstFail := some .ioTimeout, lastStatus := .success })).map
      (fun t => (t.responses, t.st)) = some ([⟨.ioTimeout, none⟩], .idle) := by decide
/-- 2.6, row 2 under LAST: S. -/
theorem test_ewdsP7_last :
    (nextOf (exec .ewdsP7 { at1 .p7 .wEwds .deasserted ok with firstFail := some .ioTimeout })).map (·.responses)
      = some [⟨.success, none⟩] := by decide
/-- 2.1: P8 EWDS. -/
theorem test_ewdsP8 : requestsOf (exec .ewdsP8 (at1 .p8 .wEwds .deasserted ok))
    = some [.write .bits 11 [0x80, 0x00] true true] := by decide
/-- 2.2: P6 address 42 is the byte 0xA8. -/
theorem test_writeP6_address : requestsOf (exec (.writeP6 42 0) (at1 .p6 .wAddr .asserted ok))
    = some [.write .bits 6 [0xA8] false false] := by decide
/-- 2.3: 0x8001 goes out as 01, then 80. -/
theorem test_writeP7_data : requestsOf (exec (.writeP7 85 0x8001) (at1 .p7 .wData .asserted ok))
    = some [.write .bytes 2 [0x01, 0x80] false true] := by decide
/-- 2.5: a continuation outside a frame. -/
theorem test_writeP8_outside_frame :
    (nextOf (exec (.writeP8 1 0) (at1 .p8 .wAddr .deasserted ok))).map (·.fault)
      = some [.csFrame (.write .bits 8 [0x01] false false) .deasserted] := by decide
/-- 2.4: rx=[34 12] gives 0x1234. -/
theorem test_readP6_word :
    (nextOf (exec (.readP6 42) (at1 .p6 .rData .asserted ok))).map (fun t => (t.responses, t.st, t.rxQ))
      = some ([⟨.success, some 0x1234⟩], .idle, ⟨0x34, 0x12⟩) := by decide
/-- 2.4: rx=[00 D0] gives 0xD000, "order matters"; 2.6: the word comes whatever the status. -/
theorem test_readP7_byte_order :
    (nextOf (exec (.readP7 85) (at1 .p7 .rData .asserted (ans .invalidHandle 0x00 0xD0)))).map (·.responses)
      = some [⟨.invalidHandle, some 0xD000⟩] := by decide
/-- 2.4: the dummy bit. -/
theorem test_readP8_dummy : requestsOf (exec (.readP8 1) (at1 .p8 .rDummy .asserted ok))
    = some [.write .bits 1 [0x00] false false] := by decide
/-- 2.2: P6, 0xFFFF under TRUNCATE is 63. -/
theorem test_writeWord_truncates :
    (nextOf (exec (.writeWord 0xFFFF 1) { session .p6 with cfg := ⟨.p6, .truncate, .last, 0⟩ })).map
      (fun t => (t.addrQ, t.st, t.fault)) = some (63, .wEwen, []) := by decide
/-- L3.4: P6, 64 under REFUSE is F_ADDR_RANGE(64), with an empty trace and no response. -/
theorem test_writeWord_refuses :
    (nextOf (exec (.writeWord 64 1) (session .p6))).map (fun t => (t.fault, t.trace, t.responses, t.cmdReady))
      = some ([.addrRange 64], [], [], false) := by decide
/-- E7: P8, 255 is ordinary; 256 is not. -/
theorem test_readWord_boundary :
    (nextOf (exec (.readWord 255) (session .p8))).map (fun t => (t.addrQ, t.st)) = some (255, .rOp) ∧
    (nextOf (exec (.readWord 256) (session .p8))).map (·.fault) = some [.addrRange 256] := by decide
/-- L3.5: a command presented in W_SETTLE is held. -/
theorem test_readWord_held :
    (nextOf (exec (.readWord 1) (at1 .p6 .wSettle .asserted ok))).map (·.st) = some .wSettle := by decide

/-! ## Placed words run in the next step -/

theorem test_placed_ewenP6 : requestsOf (step (State.reset.withFetchWord 16 0x13F)) = some [reqEwen .p6] := by decide
theorem test_placed_writeP7 : requestsOf (step (State.reset.withFetchWord 16 0x2D5)) = some [reqWriteOp] := by decide
theorem test_placed_readP8 : requestsOf (step (State.reset.withFetchWord 16 0x65A)) = some [reqReadOp] := by decide
theorem test_placed_ewdsP8 : requestsOf (step (State.reset.withFetchWord 16 0x400)) = some [reqEwds .p8] := by decide
theorem test_placed_readWord :
    (nextOf (step (State.reset.withFetchWord 40 0x100010000))).map (fun t => (t.st, t.addrQ, t.cmds))
      = some (.rOp, 1, []) := by decide

/-! ## Witnesses: concrete values that meet the hypotheses of each statement -/

/-- Steps that issue, one from each family, for the statements whose hypothesis is a next state. -/
theorem witness_step_issues :
    (nextOf (step (at1 .p6 .wEwen .deasserted ok))).isSome = true ∧
    (nextOf (step (at1 .p7 .rData .asserted ok))).isSome = true ∧
    (nextOf (step (at1 .p8 .wStrbOff .asserted ok))).isSome = true := by decide

/-- CommandWordValues, AddressByteIsLeftJustified, RequestsDriveTheirWireBits: the least and the greatest address. -/
theorem witness_addresses : (0 < 2 ^ Profile.p6.addrBits ∧ 63 < 2 ^ Profile.p6.addrBits) ∧
    127 < 2 ^ Profile.p7.addrBits ∧ 255 < 2 ^ Profile.p8.addrBits := by decide

/-- DecodedFrameIsTheEncodedOne. -/
theorem witness_decodedFrame : decodeFrame .p6 (encodeWrite .p6 63 0xBEEF) = .ok (.writeP6 63 0xBEEF) := by decide

/-- NeverEmittedPatternsAreRefused: a field of `A` bits, neither all ones nor all zeros. -/
theorem witness_neverEmitted :
    ([true, false, true, false] : List Bool).length + 2 = Profile.p6.addrBits ∧
    [true, false, true, false] ≠ List.replicate (Profile.p6.addrBits - 2) true ∧
    [true, false, true, false] ≠ List.replicate (Profile.p6.addrBits - 2) false := by decide

/-- ResetWhileBusyAborts, and the clause of HostCommandsAreAccepted on a busy block. -/
theorem witness_busy : (at1 .p6 .wSettle .asserted ok).st ≠ .idle ∧ (at1 .p6 .wSettle .asserted ok).fault = [] := by
  decide

/-- ResetRecovers: both cases; FaultedBlockIsQuiescent. -/
theorem witness_recovers : (session .p7).st = .idle ∧
    ({ session .p7 with st := .wOp, fault := [.csFrame reqWriteOp .asserted] } : State).fault ≠ [] := by decide

/-- HostCommandsAreAccepted, AddressPolicyIsApplied's first clause: the greatest address in range. -/
theorem witness_accepted : (session .p6).st = .idle ∧ (session .p6).fault = [] ∧
    (63 : BitVec 16).toNat < 2 ^ (session .p6).cfg.profile.addrBits := by decide

/-- OutOfRangeAddressFaults, and AddressPolicyIsApplied's other clauses: the least address out of range. -/
theorem witness_outOfRange : (session .p6).st = .idle ∧ (session .p6).fault = [] ∧
    2 ^ (session .p6).cfg.profile.addrBits ≤ (64 : BitVec 16).toNat ∧ (session .p6).cfg.addrPolicy = .refuse ∧
    ({ session .p6 with cfg := ⟨.p6, .truncate, .last, 0⟩ } : State).cfg.addrPolicy = .truncate := by decide

/-- CommandsHoldWhileNotReady: a busy block that becomes ready in its last step, and a faulted one. -/
theorem witness_notReady : (at1 .p6 .wEwds .deasserted ok).cmdReady = false ∧
    (nextOf (step (at1 .p6 .wEwds .deasserted ok))).map (fun t => (t.cmdReady, t.responses.length)) = some (true, 1) ∧
    ({ session .p6 with fault := [.addrRange 64] } : State).cmdReady = false ∧ (session .p6).cmdReady = true := by
  decide

/-- The exceptions of the command words: a view against the framing contract in each of their states (R106, R107). -/
theorem witness_misframed :
    ((at1 .p6 .wEwen .asserted ok).fault = [] ∧ (at1 .p6 .wEwen .asserted ok).cs = .asserted) ∧
    (at1 .p6 .wEwds .asserted ok).st = .wEwds ∧ (at1 .p7 .wOp .asserted ok).st = .wOp ∧
    (at1 .p8 .rOp .asserted ok).cs = .asserted ∧ (at1 .p6 .wAddr .deasserted ok).cs = .deasserted ∧
    (at1 .p7 .rAddr .deasserted ok).st = .rAddr ∧ (at1 .p8 .wData .deasserted ok).st = .wData ∧
    (at1 .p6 .rDummy .deasserted ok).st = .rDummy ∧ (at1 .p7 .rData .deasserted ok).cfg.profile = .p7 := by decide

/-- HostCommandsFrame: an accepted command, a refused address, and a held command. -/
theorem witness_hostFrame : Instr.profile? (.readWord 1) = none ∧
    (nextOf (exec (.readWord 1) (session .p6))).isSome = true ∧
    (nextOf (exec (.writeWord 64 1) (session .p6))).map (·.fault) = some [.addrRange 64] ∧
    (nextOf (exec (.writeWord 1 1) (at1 .p6 .rOp .deasserted ok))).isSome = true := by decide

/-- EwenRowsEmitTheirFrame and EwdsRowsEmitTheirFrameAndRespond. -/
theorem witness_enable :
    ReadyAt (at1 .p6 .wEwen .deasserted ok) .p6 .wEwen .deasserted ok ∧
    ReadyAt (at1 .p8 .wEwds .deasserted ok) .p8 .wEwds .deasserted ok := by
  refine ⟨?_, ?_⟩ <;> exact ⟨by decide, by decide, by decide, by decide, by decide⟩

/-- OpcodesOpenTheirFrames, AddressesContinueTheirFrames and WriteRowsSendData, for WRITE. -/
theorem witness_write :
    ReadyAt (at1 .p6 .wOp .deasserted ok) .p6 .wOp .deasserted ok ∧
    ReadyAt (at1 .p7 .wAddr .asserted ok) .p7 .wAddr .asserted ok ∧
    ReadyAt (at1 .p8 .wData .asserted ok) .p8 .wData .asserted ok := by
  refine ⟨?_, ?_, ?_⟩ <;> exact ⟨by decide, by decide, by decide, by decide, by decide⟩

/-- OpcodesOpenTheirFrames, AddressesContinueTheirFrames, ReadRowsSendTheDummyBit and ReadRowsCompleteWithTheWord, for
READ. -/
theorem witness_read :
    ReadyAt (at1 .p6 .rOp .deasserted ok) .p6 .rOp .deasserted ok ∧
    ReadyAt (at1 .p7 .rAddr .asserted ok) .p7 .rAddr .asserted ok ∧
    ReadyAt (at1 .p8 .rDummy .asserted ok) .p8 .rDummy .asserted ok ∧
    ReadyAt (at1 .p6 .rData .asserted ok) .p6 .rData .asserted ok := by
  refine ⟨?_, ?_, ?_, ?_⟩ <;> exact ⟨by decide, by decide, by decide, by decide, by decide⟩

/-- A block over the loopback mock, in W_DATA of a WRITE frame at address 5. -/
def mockWriting : State :=
  { at1 .p7 .wData .asserted ok with
    transport := .loopback
    addrQ := 5
    trace := [⟨reqWriteOp, .status .success⟩, ⟨reqAddr .p7 5, .status .success⟩] }

/-- A block over the loopback mock, in R_DATA of a READ frame at address 5, which holds 0xA55A (L3.3). -/
def mockReading : State :=
  { session .p7 with
    st := .rData
    cs := .asserted
    transport := .loopback
    mem := memWriteWord [] 5 (wordSplit 0xA55A)
    trace := [⟨reqReadOp, .status .success⟩, ⟨reqAddr .p7 5, .status .success⟩, ⟨reqDummy, .status .success⟩] }

/-- MockStoresTheWriteFrame, and CommandWordsFrame's clause on a stored word. -/
theorem witness_mockStores :
    ReadyAt mockWriting .p7 .wData .asserted ok ∧ 5 < 2 ^ Profile.p7.addrBits ∧ mockWriting.transport = .loopback ∧
    openFrame mockWriting.trace = [true, false, true] ++ msbBits 5 Profile.p7.addrBits := by
  refine ⟨⟨?_, ?_, ?_, ?_, ?_⟩, ?_, ?_, ?_⟩ <;> decide

/-- The store after that step, at its least bytes (95_test_vectors.md L3.3: `M[5] = (5A, A5)` for 0xA55A). -/
theorem test_mock_stores :
    (nextOf (exec (.writeP7 5 0xA55A) mockWriting)).map (·.mem) = some [(10, 0x5A), (11, 0xA5)] := by decide

/-- CommandWordsFrame: a next state with a stored word, one with none, and one that is no frame at all. -/
theorem witness_commandFrame :
    Instr.profile? (.writeP7 5 0xA55A) = some .p7 ∧
    (nextOf (exec (.writeP7 5 0xA55A) mockWriting)).map (fun t => deviceTarget .p7 t.trace (reqData 0xA55A))
      = some (some (5, 0xA55A)) ∧
    (nextOf (exec (.writeP7 5 0xA55A) { mockWriting with trace := [] })).map
      (fun t => deviceTarget .p7 t.trace (reqData 0xA55A)) = some none ∧
    (nextOf (exec .ewenP7 (at1 .p7 .wEwen .deasserted ok))).isSome = true := by decide

/-- MockReturnsTheStoredWord. -/
theorem witness_mockReturns :
    mockReading.fault = [] ∧ mockReading.cfg.profile = .p7 ∧ mockReading.st = .rData ∧ mockReading.cs = .asserted ∧
    mockReading.txIn = [] ∧ mockReading.transport = .loopback ∧ 5 < 2 ^ Profile.p7.addrBits ∧
    openFrame mockReading.trace = [true, true, false] ++ msbBits 5 Profile.p7.addrBits ++ [false] ∧
    memReadWord mockReading.mem 5 = some 0xA55A := by decide

/-- A block over the device of R59, in the last call of a WRITE_WORD at address 42. -/
def deviceWriting (tSettle writeCycle : Nat) (f : Option Status) : State :=
  { at1 .p6 .wEwds .deasserted ok with
    cfg := ⟨.p6, .refuse, .last, tSettle⟩
    transport := .device
    writeCycle := writeCycle
    firstFail := f
    mem := [(0, 7)] }

/-- R59: visible at a settle time equal to the write-cycle time, and nothing kept one below it. -/
theorem test_device_settle :
    (nextOf (exec .ewdsP6 (deviceWriting 5 5 none))).map (·.mem) = some [(0, 7), (84, 0x34), (85, 0x12)] ∧
    (nextOf (exec .ewdsP6 (deviceWriting 4 5 none))).map (·.mem) = some [] := by decide
/-- R59: nothing kept when a call of the write failed. -/
theorem test_device_failed_call :
    (nextOf (exec .ewdsP6 (deviceWriting 5 5 (some .ioTimeout)))).map (·.mem) = some [] := by decide

/-- DeviceKeepsVisibleWrites: each of its conditions, and CommandWordsFrame's clause on the device. -/
theorem witness_device :
    ReadyAt (deviceWriting 5 5 none) .p6 .wEwds .deasserted ok ∧ (deviceWriting 5 5 none).transport = .device ∧
    (deviceWriting 5 5 none).writeCycle ≤ (deviceWriting 5 5 none).cfg.tSettle ∧
    (deviceWriting 4 5 none).cfg.tSettle < (deviceWriting 4 5 none).writeCycle ∧
    (deviceWriting 5 5 (some .ioTimeout)).firstFail ≠ none := by
  refine ⟨⟨?_, ?_, ?_, ?_, ?_⟩, ?_, ?_, ?_, ?_⟩ <;> decide

/-- ReadBitsFillBytesMsbFirst: 16 bits for two bytes, and an answer that lists none. -/
theorem witness_readBits : (bufferBits [0x34, 0x12]).length = 8 * 2 ∧ (⟨.success, 0, []⟩ : TxAnswer).rx = [] ∧
    0 < (ok.rx).length := by decide

/-- VisibleWriteIsReadBack: eleven answers, the device, a settle time that is long enough and one that is not. -/
theorem witness_visible :
    let s : State := { session .p6 with
      cfg := ⟨.p6, .refuse, .last, 5⟩, transport := .device, writeCycle := 5
      cmds := [encodeHost 0 63 0xD0, encodeHost 1 63 0], txIn := List.replicate 11 ⟨.success, 2, []⟩ }
    Presents s (encodeHost 0 63 0xD0) [encodeHost 1 63 0] ∧ Accepts s 63 ∧ s.transport = .device ∧
    s.settleEnds = true ∧ s.txIn = List.replicate 11 ⟨.success, 2, []⟩ ++ [] ∧ s.writeCycle ≤ s.cfg.tSettle ∧
    firstFailureOf (s.txIn.map (·.status)) = .success ∧ firstFailureOf [.success, .ioTimeout] ≠ .success ∧
    (∀ k ∈ s.txIn, 2 ≤ k.nXfer) ∧ s.cfg.profile = s.deviceProfile := by
  refine ⟨⟨?_, ?_, ?_, ?_⟩, .inl ?_, ?_, ?_, ?_, ?_, ?_, ?_, ?_, ?_⟩ <;> decide

/-- R170: data is trusted with SUCCESS only; WRITE_WORD's response has none. -/
theorem test_trusted :
    Response.trusted? ⟨.success, some 0x1234⟩ = some 0x1234 ∧ Response.trusted? ⟨.ioTimeout, some 0x1234⟩ = none ∧
    Response.trusted? ⟨.success, none⟩ = none := by decide

/-- TrustedReadIsTheWrittenWord: both policies, the write's calls answered well, and a read whose first call failed. -/
theorem witness_trusted :
    let good : TxAnswer := ⟨.success, 2, []⟩
    let bad : TxAnswer := ⟨.ioTimeout, 0, []⟩
    let s (policy : StatusPolicy) : State := { session .p6 with
      cfg := ⟨.p6, .refuse, policy, 5⟩, transport := .device, writeCycle := 5
      cmds := [encodeHost 0 63 0xD0, encodeHost 1 63 0]
      txIn := List.replicate 7 good ++ [bad, good, good, good] }
    (∀ policy, Presents (s policy) (encodeHost 0 63 0xD0) [encodeHost 1 63 0] ∧ Accepts (s policy) 63 ∧
      (s policy).settleEnds = true ∧ (s policy).writeCycle ≤ (s policy).cfg.tSettle) ∧
    transactionStatus .firstFailure [bad.status, good.status, good.status, good.status] ≠ .success ∧
    transactionStatus .last [bad.status, good.status, good.status, good.status] = .success ∧
    firstFailureOf (List.replicate 7 .success) = .success ∧
    firstFailureOf (List.replicate 7 .success ++ [bad.status, .success, .success]) ≠ .success := by
  refine ⟨fun policy => ⟨⟨rfl, rfl, rfl, rfl⟩, .inl (by decide : 63 < 64), rfl, (by decide : 5 ≤ 5)⟩, ?_, ?_, ?_, ?_⟩ <;>
    decide

/-- A block over the device of R59, in R_DATA of a READ frame at address 5, which holds 0xA55A, its read answered. -/
def deviceReading (status : Status) (nXfer : Nat) : State :=
  { mockReading with transport := .device, txIn := [⟨status, nXfer, []⟩] }

/-- R98, R59, at the boundary of `n_xfer`: with 2 bytes transferred the device gives the stored byte, with 1 it gives
none, so it is a draw; and none of a failed read (I7). -/
theorem test_short_read_draws :
    (deviceReading .success 2).deviceByte? ⟨.success, 2, []⟩ 2 1 = some 0xA5 ∧
    (deviceReading .success 1).deviceByte? ⟨.success, 1, []⟩ 2 1 = none ∧
    mockReading.deviceByte? ⟨.success, 2, []⟩ 2 0 = some 0x5A ∧
    mockReading.deviceByte? ⟨.success, 1, []⟩ 2 0 = none ∧
    mockReading.deviceByte? ⟨.ioTimeout, 2, []⟩ 2 0 = none := by decide

/-- ShortOrMismatchedReadsAreDraws: a short read and a failed one, over both devices, whose word is there. -/
theorem witness_shortReads :
    ReadyAt (deviceReading .success 1) .p7 .rData .asserted ⟨.success, 1, []⟩ ∧
    ReadyAt (deviceReading .ioTimeout 2) .p7 .rData .asserted ⟨.ioTimeout, 2, []⟩ ∧
    ReadyAt { mockReading with txIn := [⟨.success, 1, []⟩] } .p7 .rData .asserted ⟨.success, 1, []⟩ := by
  refine ⟨⟨?_, ?_, ?_, ?_, ?_⟩, ⟨?_, ?_, ?_, ?_, ?_⟩, ⟨?_, ?_, ?_, ?_, ?_⟩⟩ <;> decide

/-- R162: over a device of another profile no byte of a full read is the device's, and a write that every call of
returned SUCCESS for leaves nothing stored. -/
theorem test_mismatched_device :
    { deviceReading .success 2 with deviceProfile := .p8 }.deviceByte? ⟨.success, 2, []⟩ 2 1 = none ∧
    (nextOf (exec .ewdsP6 { deviceWriting 5 5 none with deviceProfile := .p7 })).map (·.mem) = some [] := by decide

/-- ShortOrMismatchedReadsAreDraws and DeviceKeepsVisibleWrites over a device of another profile; and a matched device
for their other clauses. -/
theorem witness_mismatched :
    ReadyAt { deviceReading .success 2 with deviceProfile := .p8 } .p7 .rData .asserted ⟨.success, 2, []⟩ ∧
    ReadyAt { deviceWriting 5 5 none with deviceProfile := .p7 } .p6 .wEwds .deasserted ok ∧
    (deviceWriting 5 5 none).deviceProfile = .p6 ∧ (deviceReading .success 2).deviceProfile = .p7 := by
  refine ⟨⟨?_, ?_, ?_, ?_, ?_⟩, ⟨?_, ?_, ?_, ?_, ?_⟩, ?_, ?_⟩ <;> decide

/-- The premise Accepts at both its boundaries: 64 on P6 is taken under TRUNCATE, as address 0, and not under REFUSE. -/
theorem witness_accepts :
    Accepts { session .p6 with cfg := ⟨.p6, .truncate, .last, 0⟩ } 64 ∧
    latched { session .p6 with cfg := ⟨.p6, .truncate, .last, 0⟩ } 64 = 0 ∧
    Accepts (session .p6) 63 ∧ ¬ Accepts (session .p6) 64 := by
  refine ⟨.inr ?_, ?_, .inl ?_, ?_⟩
  · decide
  · decide
  · decide
  · simp only [Accepts, not_or]; decide

/-- OtherProfileWordsAreRefused. -/
theorem witness_otherProfile : Instr.profile? .ewenP7 = some .p7 ∧ (session .p6).fault = [] ∧
    (session .p6).cfg.profile ≠ .p7 := by decide

/-- OutOfSequenceWordsFault: IDLE is none of the states of any frame. -/
theorem witness_outOfSequence : (session .p6).fault = [] ∧ (session .p6).st ≠ .wEwen ∧ (session .p6).st ≠ .wEwds ∧
    (session .p6).st ≠ .wOp ∧ (session .p6).st ≠ .wAddr ∧ (session .p6).st ≠ .wData ∧ (session .p6).st ≠ .rOp ∧
    (session .p6).st ≠ .rAddr ∧ (session .p6).st ≠ .rDummy ∧ (session .p6).st ≠ .rData := by decide

/-- A block in IDLE to which the host presents a record next. -/
def presenting (p : Profile) (r : BitVec 33) (rest : List (BitVec 33)) : State := { session p with cmds := r :: rest }

/-- StepRunsThePresentedCommand. -/
theorem witness_presented : (presenting .p6 (encodeHost 0 63 0xD0) []).fault = [] ∧
    (presenting .p6 (encodeHost 0 63 0xD0) []).st = .idle ∧
    decode (.host (encodeHost 0 63 0xD0)) = .ok (.writeWord 63 0xD0) := by decide

/-- StepRunsTheFramesCommandWord: each clause. -/
theorem witness_frameWords :
    (at1 .p6 .wEwen .deasserted ok).fault = [] ∧ (at1 .p6 .wEwen .deasserted ok).addrInRange ∧
    decodeFrame .p6 (encodeEwen .p6) = .ok .ewenP6 ∧ decodeFrame .p6 (encodeEwds .p6) = .ok .ewdsP6 ∧
    decodeFrame .p6 (encodeWrite .p6 42 0x1234) = .ok (.writeP6 42 0x1234) ∧
    decodeFrame .p6 (encodeRead .p6 42) = .ok (.readP6 42) := by decide

/-- StrobeFrameSteps: each clause; FrameControllerChecks: both views, answered. -/
theorem witness_strobe :
    ((at1 .p6 .wStrbOn .deasserted ok).fault = [] ∧ (at1 .p6 .wStrbOn .deasserted ok).answer? = some ok) ∧
    (at1 .p6 .wStrbOn .asserted ok).cs = .asserted ∧ (at1 .p6 .wSettle .asserted ok).settleEnds = true ∧
    ({ at1 .p6 .wSettle .asserted ok with settleEnds := false } : State).settleEnds = false ∧
    ((at1 .p6 .wStrbOff .asserted ok).st = .wStrbOff ∧ (at1 .p6 .wStrbOff .asserted ok).answer? = some ok) ∧
    (at1 .p6 .wStrbOff .deasserted ok).cs = .deasserted := by decide

/-- NextStateTable, FairTransactionsComplete: a framed busy block, answered. -/
theorem witness_nextState : (at1 .p6 .rAddr .asserted ok).fault = [] ∧ (at1 .p6 .rAddr .asserted ok).csFramed ∧
    (at1 .p6 .rAddr .asserted ok).answer?.isSome ∧ (at1 .p6 .rAddr .asserted ok).settleEnds = true ∧
    (at1 .p6 .rAddr .asserted ok).transport ≠ .silent ∧ (at1 .p6 .rAddr .asserted ok).st ≠ .idle := by decide

/-- NextStateTable's clause on IDLE. -/
theorem witness_nextState_idle : (presenting .p6 (encodeHost 1 63 0) []).csFramed ∧
    (presenting .p6 (encodeHost 1 63 0) []).cmds = encodeHost 1 63 0 :: [] ∧
    (63 : BitVec 16).toNat < 2 ^ (presenting .p6 (encodeHost 1 63 0) []).cfg.profile.addrBits := by decide

/-- CsViolationFaultsUnissued: a read outside a frame (2.5). -/
theorem witness_csViolation : (at1 .p6 .rData .deasserted ok).fault = [] ∧
    (at1 .p6 .rData .deasserted ok).request? = some reqRead ∧ reqRead.isCall = true ∧
    csCheck reqRead (at1 .p6 .rData .deasserted ok).cs = some .readOutsideFrame := by decide

/-- UnansweredBlockWaitsForEver: both cases. -/
theorem witness_unanswered :
    (({ at1 .p6 .wSettle .asserted ok with settleEnds := false } : State).csFramed ∧
      ({ session .p6 with st := .rOp, transport := .silent } : State).csFramed) ∧
    ({ session .p6 with st := .rOp, transport := .silent } : State).txIn = [] ∧
    ({ session .p6 with st := .rOp, transport := .silent } : State).st ≠ .wSettle := by decide

/-- LatchedCommandHolds: a busy step; FaultsStopTheBlock: a step that raises a fault, and a faulted one. -/
theorem witness_busyStep : (at1 .p6 .wOp .deasserted ok).st ≠ .idle ∧
    (nextOf (step (at1 .p6 .wOp .deasserted ok))).isSome = true ∧
    (nextOf (step { session .p6 with cmds := [encodeHost 0 64 1] })).map (·.fault) = some [.addrRange 64] ∧
    (nextOf (step { session .p6 with fault := [.addrRange 64] })).map (·.fault) = some [.addrRange 64] := by decide

/-- EveryStepKeepsTheInvariant: a busy state with the invariant, which steps. -/
theorem witness_invariant :
    (nextOf (step { mockReading with opQ := .readWord, accepted := 1 })).isSome = true := by decide
theorem witness_invariant_holds : ({ mockReading with opQ := .readWord, accepted := 1 } : State).Inv where
  csFramed := by decide
  addrInRange := by decide
  opMatches := by decide
  failureIsFailure := by decide
  answeredAll := by decide
  memCanonical := by decide
  memInSpace := by decide
  noCsFault := fun r c h => absurd h (by simp [mockReading, session, State.resetWith])

/-- SessionsKeepTheInvariant, its clauses on the store at a boundary: a session of the device's profile after one of
it keeps the word; a session of another profile forgets it, and so does the next one of the device's. -/
theorem test_newSession_store :
    let s : State := { mockReading with st := .idle, cs := .deasserted }
    s.deviceProfile = .p7 ∧ s.mem ≠ [] ∧ (s.newSession ⟨.p7, .truncate, .last, 0⟩).mem = s.mem ∧
    (s.newSession ⟨.p8, .refuse, .last, 0⟩).mem = [] ∧ (s.newSession ⟨.p8, .refuse, .last, 0⟩).deviceProfile = .p7 ∧
    ({ s with cfg := ⟨.p8, .refuse, .last, 0⟩ }.newSession ⟨.p7, .refuse, .last, 0⟩).mem = [] := by decide
/-- R157: a new session asked for in a transaction begins none: F_ABORTED, and the store forgets; the next one begins
(`witness_invariant_holds` meets the premise of SessionsKeepTheInvariant in that transaction). -/
theorem test_newSession_aborts :
    (mockReading.newSession ⟨.p7, .refuse, .last, 0⟩).fault = [.aborted .rData] ∧
    (mockReading.newSession ⟨.p7, .refuse, .last, 0⟩).mem = [] ∧
    ((mockReading.newSession ⟨.p7, .refuse, .last, 0⟩).newSession ⟨.p7, .refuse, .last, 0⟩).cmdReady = true := by decide

/-- WriteWordTransaction, TransactionsPutTheirFramesOnTheWire: row 4 of 2.6 (S H S T S S S), the greatest address. -/
theorem witness_writeTransaction :
    Presents (presenting .p6 (encodeHost 0 63 0xD0) []) (encodeHost 0 63 0xD0) [] ∧
    (63 : BitVec 16).toNat < 2 ^ (presenting .p6 (encodeHost 0 63 0xD0) []).cfg.profile.addrBits ∧
    Fair (presenting .p6 (encodeHost 0 63 0xD0) []) ∧
    ({ presenting .p6 (encodeHost 0 63 0xD0) [] with
        txIn := [ok, ans .invalidHandle 0 0, ok, ans .ioTimeout 0 0, ok, ok, ok] } : State).txIn
      = [ok, ans .invalidHandle 0 0, ok, ans .ioTimeout 0 0, ok, ok, ok] ++ [] := by
  refine ⟨⟨?_, ?_, ?_, ?_⟩, ?_, ⟨?_, ?_⟩, ?_⟩ <;> decide

/-- ReadWordTransaction. -/
theorem witness_readTransaction :
    Presents (presenting .p6 (encodeHost 1 0 0xBEEF) []) (encodeHost 1 0 0xBEEF) [] ∧
    ({ presenting .p6 (encodeHost 1 0 0xBEEF) [] with txIn := [ok, ok, ok, ans .invalidHandle 0xD0 0] } : State).txIn
      = [ok, ok, ok, ans .invalidHandle 0xD0 0] ++ [] := by
  refine ⟨⟨?_, ?_, ?_, ?_⟩, ?_⟩ <;> decide

/-- LoopbackRoundTrip: the source's scenario E6, and a truncated address. -/
theorem witness_roundTrip :
    Presents { presenting .p6 (encodeHost 0 0 0xD0) [encodeHost 1 0 0] with transport := .loopback }
      (encodeHost 0 0 0xD0) [encodeHost 1 0 0] ∧
    (0 : BitVec 16).toNat < 2 ^ (presenting .p6 (encodeHost 0 0 0xD0) []).cfg.profile.addrBits ∧
    ({ presenting .p6 (encodeHost 0 64 1) [encodeHost 1 64 0] with cfg := ⟨.p6, .truncate, .last, 0⟩ } : State).cfg.addrPolicy
      = .truncate := by
  refine ⟨⟨?_, ?_, ?_, ?_⟩, ?_, ?_⟩ <;> decide

/-- TransactionsForgetThePast: two pasts that differ in every register the statement leaves free. -/
theorem witness_forget :
    let u : State := { presenting .p6 (encodeHost 1 0 0) [] with
      opQ := .readWord, addrQ := 9, dataQ := 7, rxQ := ⟨1, 2⟩, nxQ := 2, lastStatus := .ioTimeout,
      firstFail := some .ioTimeout, responses := [⟨.ioTimeout, none⟩], accepted := 1 }
    (u.st = .idle ∧ u.fault = [] ∧ u.cs = .deasserted) ∧ u.cmds = (presenting .p6 (encodeHost 1 0 0) []).cmds ∧
    (nextOf (step u)).isSome = true := by decide

end Sys2Proof.Tests
end

section
/-! Encoding family (30_encoding.md): what the address byte holds and drives (R74, R100), and that every request the
block issues is a well-formed record (R66). -/

namespace Sys2Proof

/-- Every address width fits the one byte that carries the address (R6, R74). -/
theorem Profile.addrBits_le_eight (p : Profile) : p.addrBits ≤ 8 := by
  cases p <;> decide

/-- The address bits and the filler bits make up the byte. -/
theorem Profile.two_pow_addrBits_mul (p : Profile) : 2 ^ p.addrBits * 2 ^ (8 - p.addrBits) = 256 := by
  calc 2 ^ p.addrBits * 2 ^ (8 - p.addrBits) = 2 ^ (p.addrBits + (8 - p.addrBits)) := (pow_add ..).symm
    _ = 2 ^ 8 := by rw [Nat.add_sub_cancel' p.addrBits_le_eight]

/-- The leading bits of a bit string, MSB first, are those of the value shifted down by the bits left out. -/
theorem take_msbBits (v m k : Nat) : (msbBits v (m + k)).take m = msbBits (v >>> k) m := by
  induction m with
  | zero => rfl
  | succ m ih => rw [Nat.succ_add, msbBits, List.take_succ_cons, ih, msbBits, Nat.testBit_shiftRight, Nat.add_comm k m]

@[simp] theorem bufferBits_singleton (b : Byte) : bufferBits [b] = msbBits b.toNat 8 :=
  List.append_nil _

end Sys2Proof

namespace Sys2Proof.Machine

/-! ## The address byte (R74, R100) -/

theorem addrByte_toNat (p : Profile) (a : Nat) : (addrByte p a).toNat = (a <<< (8 - p.addrBits)) % 256 :=
  BitVec.toNat_ofNat _ _

/-- The bits of the address byte below the address are 0. -/
theorem addrByte_toNat_mod (p : Profile) (a : Nat) : (addrByte p a).toNat % 2 ^ (8 - p.addrBits) = 0 := by
  have hdvd : 2 ^ (8 - p.addrBits) ∣ 256 := p.two_pow_addrBits_mul ▸ Nat.dvd_mul_left _ _
  rw [addrByte_toNat, Nat.mod_mod_of_dvd _ hdvd, Nat.shiftLeft_eq, Nat.mul_mod_left]

/-- In range the shift does not wrap: `a · 2^(8-A)` stays below `2^A · 2^(8-A)`. -/
theorem addrByte_toNat_of_lt {p : Profile} {a : Nat} (h : a < 2 ^ p.addrBits) :
    (addrByte p a).toNat = a * 2 ^ (8 - p.addrBits) := by
  have hlt : a * 2 ^ (8 - p.addrBits) < 256 :=
    p.two_pow_addrBits_mul ▸ Nat.mul_lt_mul_of_pos_right h (Nat.two_pow_pos _)
  rw [addrByte_toNat, Nat.shiftLeft_eq, Nat.mod_eq_of_lt hlt]

theorem addrByte_toNat_shiftRight {p : Profile} {a : Nat} (h : a < 2 ^ p.addrBits) :
    (addrByte p a).toNat >>> (8 - p.addrBits) = a := by
  rw [addrByte_toNat_of_lt h, Nat.shiftRight_eq_div_pow, Nat.mul_div_cancel _ (Nat.two_pow_pos _)]

/-- ENC_ADDR drives the top `A` bits of its byte, which shifted back are the address (R93). -/
theorem reqAddr_wireBits {p : Profile} {a : Nat} (h : a < 2 ^ p.addrBits) :
    (reqAddr p a).wireBits = msbBits a p.addrBits := by
  have htake := take_msbBits (addrByte p a).toNat p.addrBits (8 - p.addrBits)
  rw [Nat.add_sub_cancel' p.addrBits_le_eight, addrByte_toNat_shiftRight h] at htake
  simpa [reqAddr, Request.wireBits, TxUnit.bitCount] using htake

/-- Settles O7: the byte is the shifted address modulo 256, which in range is a product below 256. -/
theorem addressByteIsLeftJustified : Obligations.AddressByteIsLeftJustified :=
  ⟨fun p a => ⟨addrByte_toNat p a, rfl, addrByte_toNat_mod p a⟩,
    fun _ _ h => ⟨addrByte_toNat_of_lt h, addrByte_toNat_shiftRight h, reqAddr_wireBits h⟩⟩

/-! ## Well-formed requests (R66) -/

@[simp] theorem Request.wf_write (unit : TxUnit) (len : Nat) (buf : List Byte) (acs dcs : Bool) :
    (Request.write unit len buf acs dcs).wf = true ↔ unit.bitCount len ≤ 8 * buf.length :=
  decide_eq_true_iff

/-- Every row of the table of R81 is a well-formed record, whatever the registers hold. -/
theorem State.request?_wf {s : State} {req : Request} (h : s.request? = some req) : req.wf = true := by
  have hA := s.cfg.profile.addrBits_le_eight
  cases hs : s.st <;> simp only [State.request?, hs, Option.some.injEq, reduceCtorEq] at h <;> subst h
  case wEwen | wEwds => exact (Request.wf_write ..).mpr (show s.cfg.profile.addrBits + 3 ≤ 16 by omega)
  case wAddr | rAddr => exact (Request.wf_write ..).mpr hA
  all_goals rfl

/-! ## The lines a step adds to the trace (R42) -/

theorem accept_trace (op : HostOp) (addr : BitVec 16) (data : Word) (s : State) :
    (accept op addr data s).trace = s.trace := by
  obtain ⟨-, -, h⟩ | ⟨a, -, -, h⟩ := accept_cases op addr data s <;> rw [h]
  rfl

/-- `Issue` adds at most the line of its own request, if the rest of the step adds none. -/
theorem issue_trace (req : Request) {done : TxAnswer → State → State}
    (hdone : ∀ ans t, (done ans t).trace = t.trace) (s : State) :
    (issue req done s).trace = s.trace ∨
      ∃ ans, (issue req done s).trace = s.trace ++ [⟨req, replyTo req ans s⟩] := by
  obtain ⟨-, h⟩ | ⟨-, -, h⟩ | ⟨-, ans, -, h⟩ := issue_cases req done s
  · exact .inl (by rw [h, raiseFault_trace])
  · exact .inl (by rw [h])
  · exact .inr ⟨ans, by rw [h, hdone, issueAnswered_trace]⟩

/-- The delay's line is that of the request of W_SETTLE; a delay is answered by its end alone. -/
theorem settleDelay_trace (s : State) :
    (settleDelay s).trace = s.trace ∨
      (settleDelay s).trace = s.trace ++ [⟨.delay s.cfg.tSettle, .settled⟩] := by
  unfold settleDelay
  split
  · exact .inr rfl
  · exact .inl rfl

/-- A step adds to the trace nothing, or the one line of the request of its sequencer state (R81) and what answered
it. -/
theorem step_trace {s t : State} (h : step s = .next t) :
    t.trace = s.trace ∨
      ∃ req ans, s.request? = some req ∧ t.trace = s.trace ++ [⟨req, replyTo req ans s⟩] := by
  have next_eq {u : State} (hu : step s = .next u) : t = u := Host.Outcome.next.inj (h.symm.trans hu)
  obtain hw | ⟨-, -, r, rest, op, addr, data, -, ha⟩ | ⟨-, hs, hd⟩ | ⟨-, -, -, req, hreq, hi⟩ := step_cases s
  · exact .inl (by rw [next_eq hw])
  · exact .inl (by rw [next_eq ha, accept_trace])
  · rw [next_eq hd]
    exact (settleDelay_trace s).imp_right fun hl => ⟨_, default, by simp [State.request?, hs], hl⟩
  · have hissue : ∃ done, step s = .next (issue req done s) ∧ ∀ ans u, (done ans u).trace = u.trace := by
      obtain ⟨-, -, hu⟩ | ⟨-, hu⟩ | ⟨-, hu⟩ := hi
      · exact ⟨_, hu, fun _ _ => rfl⟩
      · exact ⟨_, hu, fun _ u => settleWrite_trace u⟩
      · exact ⟨_, hu, fun _ _ => rfl⟩
    obtain ⟨done, hu, hdone⟩ := hissue
    rw [next_eq hu]
    exact (issue_trace req hdone s).imp_right fun ⟨ans, hl⟩ => ⟨req, ans, hreq, hl⟩

/-- Settles O10: the line a step adds is that of a row of R81's table, and each row is well formed. -/
theorem issuedRequestsAreWellFormed : Obligations.IssuedRequestsAreWellFormed := by
  refine ⟨fun len buf acs dcs => ⟨Request.wf_write .bits len buf acs dcs, ?_⟩, fun s t h e he => ?_⟩
  · rw [Request.wf_write, TxUnit.bitCount]
    omega
  · obtain htrace | ⟨req, ans, hreq, htrace⟩ := step_trace h
    · exact .inl (htrace ▸ he)
    · rw [htrace, List.mem_append, List.mem_singleton] at he
      exact he.imp_right (by rintro rfl; exact State.request?_wf hreq)

end Sys2Proof.Machine
end

section
/-! Codec family (40_codec.md): the CS-frame controller in isolation (R106 to R108), and the request each command word
issues in each sequencer state of its frame, with what the step leaves (R89 to R93, R95, R98, R99). -/

namespace Sys2Proof.Machine

open Sys2Proof.Statements

/-! ## The CS-frame controller (R106 to R108) -/

/-- A fault-free block that takes a fault changes in nothing else (R141). -/
theorem raiseFault_of_noFault {s : State} (hf : s.fault = []) (f : BlockFault) :
    raiseFault f s = { s with fault := [f] } := by
  rw [raiseFault, hf, addFault_nil]

/-- After a transport call that passed its check, the view is the one the request's flags ask for (R108). -/
theorem csAfter_of_csCheck {req : Request} {cs : CsView} (hc : csCheck req cs = none) (hcall : req.isCall = true) :
    csAfter req cs = if req.dcs then .deasserted else .asserted := by
  rw [csCheck_eq_none_iff] at hc
  cases req with
  | write u n b acs dcs => cases acs <;> simp [csAfter, Request.acs, hc]
  | read n dcs => simp [csAfter, Request.acs, hc]
  | delay t => simp [Request.isCall] at hcall

section
variable {s : State} {req : Request} {cs : CsView}

/-- A transport call that passes its check and is answered: the rest of the step starts from its trace line and from the
view its flags ask for. -/
theorem issue_of_csCheck {ans : TxAnswer} (ha : s.answer? = some ans) (done : TxAnswer → State → State)
    (hcs : s.cs = cs) (hc : csCheck req cs = none) (hcall : req.isCall = true) :
    ∃ t, issue req done s = done ans t ∧ t.cs = (if req.dcs then .deasserted else .asserted) ∧
      t.trace = s.trace ++ [⟨req, replyTo req ans s⟩] := by
  subst hcs
  exact ⟨_, issue_answered hc ha done, csAfter_of_csCheck hc hcall, issueAnswered_trace req ans s⟩

/-- A request against the framing contract leaves F_CS_FRAME and nothing else (R106, R107). -/
theorem issue_of_violation (hf : s.fault = []) (done : TxAnswer → State → State) (hcs : s.cs = cs) {v : CsViolation}
    (hc : csCheck req cs = some v) : issue req done s = { s with fault := [.csFrame req cs] } := by
  subst hcs
  rw [issue_raises hc, raiseFault_of_noFault hf]

end

/-- Settles O41: in either view, each request violates its check or passes it. -/
theorem frameControllerChecks : Obligations.FrameControllerChecks := fun _ _ _ _ _ _ done hf ha =>
  ⟨fun hcs => issue_of_violation hf done hcs rfl,
    fun hcs => ⟨issue_of_violation hf done hcs rfl, issue_of_violation hf done hcs rfl⟩,
    fun hcs => issue_of_csCheck ha done hcs rfl rfl,
    fun hcs => issue_of_csCheck ha done hcs rfl rfl,
    fun hcs => issue_of_csCheck ha done hcs rfl rfl⟩

/-! ## `Issue` in the terms of R88 and R131 -/

theorem recordFailure_eq_ite (x : Status) (f : Option Status) :
    recordFailure x f = if x ≠ .success ∧ f = none then some x else f := by
  cases f with
  | none => by_cases hx : x = .success <;> simp [recordFailure, hx]
  | some y => simp [recordFailure]

/-- The store apart, an issued request has R88's effect and moves the CS view. -/
theorem issueAnswered_with_mem (req : Request) (ans : TxAnswer) (s : State) (m : List Host.Cell) :
    { issueAnswered req ans s with mem := m } =
      { afterIssue s ans ⟨req, replyTo req ans s⟩ with cs := csAfter req s.cs, mem := m } := by
  rw [afterIssue, ← recordFailure_eq_ite]
  rfl

/-- The mock stores nothing for this request, whatever it followed and whatever answered it. -/
def StoresNothing (p : Profile) (req : Request) : Prop :=
  ∀ trace reply m, deviceStore p (trace ++ [⟨req, reply⟩]) req m = m

theorem issueAnswered_of_storesNothing {s : State} {req : Request} (h : StoresNothing s.cfg.profile req)
    (ans : TxAnswer) :
    issueAnswered req ans s = { afterIssue s ans ⟨req, replyTo req ans s⟩ with cs := csAfter req s.cs } := by
  have hmem : (issueAnswered req ans s).mem = s.mem := by rw [issueAnswered_mem, h, ite_self]
  calc issueAnswered req ans s
    _ = { issueAnswered req ans s with mem := s.mem } := by rw [← hmem]
    _ = _ := issueAnswered_with_mem req ans s s.mem

theorem storesNothing_of_open {p : Profile} {u : TxUnit} {n : Nat} {b : List Byte} {acs : Bool} :
    StoresNothing p (.write u n b acs false) := fun _ _ m => deviceStore_of_open u n b acs p _ m

theorem storesNothing_of_read {p : Profile} {n : Nat} {dcs : Bool} : StoresNothing p (.read n dcs) :=
  fun _ _ m => deviceStore_of_read n dcs p _ m

/-- The request that closes a frame stores what the frame's instruction has to store. -/
theorem deviceTarget_of_decodeFrame {p : Profile} {trace : List TraceEntry} {i : Instr}
    (h : decodeFrame p (openFrame trace) = .ok i) (u : TxUnit) (n : Nat) (b : List Byte) (acs : Bool) :
    deviceTarget p trace (.write u n b acs true) = i.writeArgs? := by
  simp only [deviceTarget, h]

theorem resultStatus_eq_resultOf (s : State) : s.resultStatus = resultOf s := by
  unfold State.resultStatus resultOf
  cases s.cfg.statusPolicy with
  | last => rfl
  | firstFailure => cases s.firstFail <;> rfl

/-- Completing a transaction is responding and returning to IDLE (R124, R130). -/
theorem complete_eq_responded {s : State} (h : s.st.next = .idle) (data : Option Word) :
    complete data s = responded data s := by
  rw [complete, responded, h, resultStatus_eq_resultOf]

theorem takeWord_eq_responded {s : State} (h : s.st.next = .idle) (rx : BytePair) (nXfer : Nat) :
    takeWord rx nXfer s = responded (some (wordAssemble rx)) { s with rxQ := rx, nxQ := nXfer } :=
  complete_eq_responded (s := { s with rxQ := rx, nxQ := nXfer }) h _

/-- The device of R59 settles its store and nothing else. -/
theorem settleWrite_eq_with_mem (s : State) : ∃ m, settleWrite s = { s with mem := m } := by
  unfold settleWrite
  split <;> exact ⟨_, rfl⟩

/-- The last request of a WRITE_WORD, once the device has settled its store: that store apart, R88's effect and the CS
view after. -/
theorem settleWrite_issueAnswered (req : Request) (ans : TxAnswer) (s : State) :
    ∃ m, settleWrite (issueAnswered req ans s) =
      { afterIssue s ans ⟨req, replyTo req ans s⟩ with cs := csAfter req s.cs, mem := m } := by
  obtain ⟨m, hm⟩ := settleWrite_eq_with_mem (issueAnswered req ans s)
  exact ⟨m, hm.trans (issueAnswered_with_mem req ans s m)⟩

/-! ## The requests of EWEN and EWDS (R89, R90) -/

theorem reqEwen_wireBits (p : Profile) :
    (reqEwen p).wireBits = [true, false, false, true, true] ++ List.replicate (p.cmdBits - 5) true := by
  cases p <;> rfl

theorem reqEwds_wireBits (p : Profile) :
    (reqEwds p).wireBits = [true, false, false, false, false] ++ List.replicate (p.cmdBits - 5) false := by
  cases p <;> rfl

theorem decodeFrame_reqEwen (p : Profile) : decodeFrame p (reqEwen p).wireBits = .ok (Instr.ewenOf p) := by
  cases p <;> rfl

/-- EWEN's request closes a frame, which the mock reads as no WRITE. -/
theorem storesNothing_reqEwen (p : Profile) : StoresNothing p (reqEwen p) := by
  intro trace reply m
  have hopen : openFrame (trace ++ [⟨reqEwen p, reply⟩]) = (reqEwen p).wireBits := openFrame_append ..
  have hargs : (Instr.ewenOf p).writeArgs? = none := by cases p <;> rfl
  have htarget : deviceTarget p (trace ++ [⟨reqEwen p, reply⟩]) (reqEwen p) = none :=
    (deviceTarget_of_decodeFrame (by rw [hopen, decodeFrame_reqEwen]) ..).trans hargs
  rw [deviceStore, htarget]

/-! ## A command word issues one request in each state of its frame (R81, R87) -/

/-- In sequencer state `st` of a fault-free session of profile `p`, the meaning of `i` is to issue `req`, then `done`. -/
def Issues (i : Instr) (p : Profile) (st : Seq) (req : Request) (done : State → TxAnswer → State → State) : Prop :=
  ∀ s : State, s.fault = [] → s.cfg.profile = p → s.st = st → exec i s = .next (issue req (done s) s)

/-- The same, the rest of the step being the sequencer's move to the next state. -/
abbrev IssuesAndAdvances (i : Instr) (p : Profile) (st : Seq) (req : Request) : Prop :=
  Issues i p st req (fun _ _ t => advance t)

theorem ewenOf_issues (p : Profile) : IssuesAndAdvances (Instr.ewenOf p) p .wEwen (reqEwen p) := by
  rintro s hf rfl hst
  simp only [exec_ewenOf hf, runEwen, hst, encEwen, issueThenAdvance]

theorem ewdsOf_issues (p : Profile) :
    Issues (Instr.ewdsOf p) p .wEwds (reqEwds p) (fun _ _ t => complete none (settleWrite t)) := by
  rintro s hf rfl hst
  simp only [exec_ewdsOf hf, runEwds, hst, encEwds]

theorem writeOf_issues_opcode (p : Profile) (a : Nat) (d : Word) :
    IssuesAndAdvances (Instr.writeOf p a d) p .wOp reqWriteOp := by
  rintro s hf rfl hst
  simp only [exec_writeOf hf, runWrite, hst, encWriteOp, issueThenAdvance]

theorem readOf_issues_opcode (p : Profile) (a : Nat) : IssuesAndAdvances (Instr.readOf p a) p .rOp reqReadOp := by
  rintro s hf rfl hst
  simp only [exec_readOf hf, runRead, hst, encReadOp, issueThenAdvance]

theorem writeOf_issues_address (p : Profile) (a : Nat) (d : Word) :
    IssuesAndAdvances (Instr.writeOf p a d) p .wAddr (reqAddr p a) := by
  rintro s hf rfl hst
  simp only [exec_writeOf hf, runWrite, hst, encAddr_mod]
  rfl

theorem readOf_issues_address (p : Profile) (a : Nat) :
    IssuesAndAdvances (Instr.readOf p a) p .rAddr (reqAddr p a) := by
  rintro s hf rfl hst
  simp only [exec_readOf hf, runRead, hst, encAddr_mod]
  rfl

theorem readOf_issues_dummy (p : Profile) (a : Nat) : IssuesAndAdvances (Instr.readOf p a) p .rDummy reqDummy := by
  rintro s hf rfl hst
  simp only [exec_readOf hf, runRead, hst, encDummy, issueThenAdvance]

theorem readOf_issues_read (p : Profile) (a : Nat) :
    Issues (Instr.readOf p a) p .rData reqRead
      (fun s ans t => takeWord (pairOf (s.received ans 2)) ans.nXfer t) := by
  rintro s hf rfl hst
  simp only [exec_readOf hf, runRead, hst, decRead]

/-! ## What an issuing instruction does, in the terms of the statements -/

section
variable {i : Instr} {p : Profile} {st : Seq} {cs : CsView} {req : Request} {done : State → TxAnswer → State → State}

/-- With the view its check asks for and an answer, the request is issued. -/
theorem Issues.exec_eq (h : Issues i p st req done) (hc : csCheck req cs = none) {s : State} {ans : TxAnswer}
    (hr : ReadyAt s p st cs ans) : exec i s = .next (done s ans (issueAnswered req ans s)) := by
  obtain ⟨hf, hp, hst, hcs, ha⟩ := hr
  rw [h s hf hp hst, issue_answered (hcs ▸ hc) ha]

/-- With the other view, F_CS_FRAME is raised. -/
theorem Issues.faultsOn (h : Issues i p st req done) {v : CsViolation} (hc : csCheck req cs = some v) :
    FaultsOn i p st cs req := by
  intro s hf hp hst hcs
  rw [h s hf hp hst, issue_of_violation hf _ hcs hc]

/-- A request for which the mock stores nothing leaves R88's effect, the next sequencer state and the view after. -/
theorem IssuesAndAdvances.exec_eq (h : IssuesAndAdvances i p st req) (hc : csCheck req cs = none)
    (hstore : StoresNothing p req) {s : State} {ans : TxAnswer} (hr : ReadyAt s p st cs ans) :
    exec i s = .next { afterIssue s ans ⟨req, replyTo req ans s⟩ with st := st.next, cs := csAfter req s.cs } := by
  have hexec := Issues.exec_eq h hc hr
  obtain ⟨-, rfl, rfl, -, -⟩ := hr
  rw [hexec, issueAnswered_of_storesNothing hstore]
  rfl

end

/-! ## Rows of all three profiles at once -/

/-- What holds of the WRITE and READ rows of every profile at every address of its space holds of the table's rows at
every operand. -/
theorem forall_writeRows_readRows {P : Profile → Nat → Instr → Instr → Prop}
    (h : ∀ p a d, a < 2 ^ p.addrBits → P p a (Instr.writeOf p a d) (Instr.readOf p a)) :
    (∀ (a : BitVec 6) (d : Word), P .p6 a.toNat (.writeP6 a d) (.readP6 a)) ∧
    (∀ (a : BitVec 7) (d : Word), P .p7 a.toNat (.writeP7 a d) (.readP7 a)) ∧
    (∀ (a : BitVec 8) (d : Word), P .p8 a.toNat (.writeP8 a d) (.readP8 a)) :=
  ⟨fun a d => by simpa [Instr.writeOf, Instr.readOf] using h .p6 a.toNat d a.isLt,
    fun a d => by simpa [Instr.writeOf, Instr.readOf] using h .p7 a.toNat d a.isLt,
    fun a d => by simpa [Instr.writeOf, Instr.readOf] using h .p8 a.toNat d a.isLt⟩

theorem forall_readRows {P : Profile → Instr → Prop} (h : ∀ p a, P p (Instr.readOf p a)) :
    (∀ a : BitVec 6, P .p6 (.readP6 a)) ∧ (∀ a : BitVec 7, P .p7 (.readP7 a)) ∧ (∀ a : BitVec 8, P .p8 (.readP8 a)) := by
  obtain ⟨h6, h7, h8⟩ := forall_writeRows_readRows (P := fun p _ _ r => P p r) fun p a _ _ => h p a
  exact ⟨fun a => h6 a 0, fun a => h7 a 0, fun a => h8 a 0⟩

/-! ## The rows -/

theorem ewenEmits_ewenOf (p : Profile) : EwenEmits (Instr.ewenOf p) p p.cmdBits :=
  ⟨reqEwen_wireBits p,
    fun _ _ hr => (ewenOf_issues p).exec_eq rfl (storesNothing_reqEwen p) hr,
    (ewenOf_issues p).faultsOn rfl⟩

/-- Settles O22: the one request of EWEN is issued in W_EWEN, and the mock finds no WRITE in its frame. -/
theorem ewenRowsEmitTheirFrame : Obligations.EwenRowsEmitTheirFrame :=
  ⟨ewenEmits_ewenOf .p6, ewenEmits_ewenOf .p7, ewenEmits_ewenOf .p8⟩

theorem ewdsEmits_ewdsOf (p : Profile) : EwdsEmits (Instr.ewdsOf p) p p.cmdBits := by
  refine ⟨reqEwds_wireBits p, fun s ans hr => ?_, (ewdsOf_issues p).faultsOn rfl⟩
  have hexec := (ewdsOf_issues p).exec_eq rfl hr
  obtain ⟨-, -, hst, -, -⟩ := hr
  have hnext : (settleWrite (issueAnswered (reqEwds p) ans s)).st.next = .idle := by
    rw [settleWrite_st, issueAnswered_st, hst, Seq.next]
  obtain ⟨m, hm⟩ := settleWrite_issueAnswered (reqEwds p) ans s
  refine ⟨m, ?_⟩
  rw [hexec, complete_eq_responded hnext, hm]
  rfl

/-- Settles O23: EWDS issues its request in W_EWDS and responds; the store is what the device left of it. -/
theorem ewdsRowsEmitTheirFrameAndRespond : Obligations.EwdsRowsEmitTheirFrameAndRespond :=
  ⟨ewdsEmits_ewdsOf .p6, ewdsEmits_ewdsOf .p7, ewdsEmits_ewdsOf .p8⟩

theorem writeOf_opensFrame (p : Profile) (a : Nat) (d : Word) :
    OpensFrame (Instr.writeOf p a d) p .wOp .wAddr 0xA0 [true, false, true] :=
  ⟨rfl, fun _ _ hr => (writeOf_issues_opcode p a d).exec_eq rfl storesNothing_of_open hr,
    (writeOf_issues_opcode p a d).faultsOn rfl⟩

theorem readOf_opensFrame (p : Profile) (a : Nat) :
    OpensFrame (Instr.readOf p a) p .rOp .rAddr 0xC0 [true, true, false] :=
  ⟨rfl, fun _ _ hr => (readOf_issues_opcode p a).exec_eq rfl storesNothing_of_open hr,
    (readOf_issues_opcode p a).faultsOn rfl⟩

/-- Settles O24: each opcode request passes its check deasserted only, and leaves CS asserted. -/
theorem opcodesOpenTheirFrames : Obligations.OpcodesOpenTheirFrames :=
  forall_writeRows_readRows
    (P := fun p _ w r => OpensFrame w p .wOp .wAddr 0xA0 [true, false, true] ∧
      OpensFrame r p .rOp .rAddr 0xC0 [true, true, false])
    fun p a d _ => ⟨writeOf_opensFrame p a d, readOf_opensFrame p a⟩

/-- An instruction that issues ENC_ADDR's request sends the address, the byte being the address times `2^(8-A)`. -/
theorem sendsAddress_of_issues {i : Instr} {p : Profile} {st : Seq} {a : Nat} (ha : a < 2 ^ p.addrBits)
    (h : IssuesAndAdvances i p st (reqAddr p a)) : SendsAddress i p st st.next p.addrBits a := by
  rintro req hreq
  obtain rfl : req = reqAddr p a := by rw [hreq, reqAddr, addrByte, Nat.shiftLeft_eq]
  exact ⟨reqAddr_wireBits ha, fun _ _ hr => h.exec_eq rfl storesNothing_of_open hr, h.faultsOn rfl⟩

/-- Settles O25: both frames continue with the request of ENC_ADDR, at every address of the profile. -/
theorem addressesContinueTheirFrames : Obligations.AddressesContinueTheirFrames :=
  forall_writeRows_readRows
    (P := fun p a w r => SendsAddress w p .wAddr .wData p.addrBits a ∧ SendsAddress r p .rAddr .rDummy p.addrBits a)
    fun p a d ha => ⟨sendsAddress_of_issues ha (writeOf_issues_address p a d),
      sendsAddress_of_issues ha (readOf_issues_address p a)⟩

theorem readOf_sendsDummy (p : Profile) (a : Nat) : SendsDummy (Instr.readOf p a) p :=
  ⟨rfl, fun _ _ hr => (readOf_issues_dummy p a).exec_eq rfl storesNothing_of_open hr,
    (readOf_issues_dummy p a).faultsOn rfl⟩

/-- Settles O27: the dummy request is a continuation, which leaves the view as it was. -/
theorem readRowsSendTheDummyBit : Obligations.ReadRowsSendTheDummyBit :=
  forall_readRows (P := fun p r => SendsDummy r p) readOf_sendsDummy

theorem readOf_readCompletes (p : Profile) (a : Nat) : ReadCompletes (Instr.readOf p a) p := by
  refine ⟨fun s ans hr => ⟨_, _, received_two s ans, ?_⟩, (readOf_issues_read p a).faultsOn rfl⟩
  have hexec := (readOf_issues_read p a).exec_eq rfl hr
  obtain ⟨-, -, hst, -, -⟩ := hr
  have hnext : (issueAnswered reqRead ans s).st.next = .idle := by rw [issueAnswered_st, hst, Seq.next]
  have hstore : StoresNothing s.cfg.profile reqRead := storesNothing_of_read
  rw [hexec, takeWord_eq_responded hnext, issueAnswered_of_storesNothing hstore, ← received_two]
  rfl

/-- Settles O28: the two bytes received fill `rx_q`, and the response carries their assembly, whatever the status. -/
theorem readRowsCompleteWithTheWord : Obligations.ReadRowsCompleteWithTheWord :=
  forall_readRows (P := fun p r => ReadCompletes r p) readOf_readCompletes

end Sys2Proof.Machine
end

section
/-! Sequencer family (41_sequencer.md): a transport status never changes the sequence (R132). What a step does to the
block's progress is a function of the progress before it and of the request issued, in which no answer occurs. -/

namespace Sys2Proof.Machine

/-! ## The progress of the block -/

/-- What the answers to its calls may not change of a block's run (R132): where the sequencer stands, the CS view, the
faults, the requests issued so far, how many responses have been delivered, and the commands left. -/
structure Progress where
  st        : Seq
  cs        : CsView
  fault     : List BlockFault
  requests  : List Request
  responses : Nat
  cmds      : List (BitVec 33)

def State.progress (s : State) : Progress where
  st := s.st
  cs := s.cs
  fault := s.fault
  requests := s.trace.map (·.req)
  responses := s.responses.length
  cmds := s.cmds

theorem State.progress_eq_iff {s t : State} :
    s.progress = t.progress ↔ s.st = t.st ∧ s.cs = t.cs ∧ s.fault = t.fault ∧
      s.trace.map (·.req) = t.trace.map (·.req) ∧ s.responses.length = t.responses.length ∧ s.cmds = t.cmds :=
  Progress.mk.injEq .. ▸ Iff.rfl

/-- The progress after a request has been issued and answered: the CS view its flags ask for (R106, R108), the next
sequencer state (R134), and a response if that state is IDLE (R124, R130). -/
def Progress.issued (req : Request) (p : Progress) : Progress where
  st := p.st.next
  cs := csAfter req p.cs
  fault := p.fault
  requests := p.requests ++ [req]
  responses := if p.st.next = .idle then p.responses + 1 else p.responses
  cmds := p.cmds

/-- The progress of a step that calls the transport: the request is issued, or is against the framing contract and
raises F_CS_FRAME (R88). -/
def Progress.called (req : Request) (p : Progress) : Progress :=
  if csCheck req p.cs = none then p.issued req
  else { p with fault := addFault (.csFrame req p.cs) p.fault }

/-! ## Steps that call the transport -/

/-- `done` ends a step begun in sequencer state `st` in the progress of `Progress.issued`, whatever the answer. -/
def EndsStepOf (st : Seq) (done : TxAnswer → State → State) : Prop :=
  ∀ req ans s, s.st = st → (done ans (issueAnswered req ans s)).progress = s.progress.issued req

theorem endsStepOf_advance {st : Seq} (h : st.next ≠ .idle) : EndsStepOf st (fun _ t => advance t) := by
  rintro req ans s rfl
  simp [State.progress, Progress.issued, h]

theorem endsStepOf_encEwds : EndsStepOf .wEwds (fun _ t => complete none (settleWrite t)) := by
  intro req ans s hs
  simp [State.progress, Progress.issued, hs, Seq.next]

theorem endsStepOf_takeWord (rx : TxAnswer → BytePair) :
    EndsStepOf .rData (fun ans t => takeWord (rx ans) ans.nXfer t) := by
  intro req ans s hs
  simp [State.progress, Progress.issued, hs, Seq.next]

section
variable {s : State} {req : Request} {ans : TxAnswer}

theorem called_of_csCheck (hc : csCheck req s.cs = none) : s.progress.called req = s.progress.issued req :=
  if_pos hc

theorem called_of_violation {v : CsViolation} (hc : csCheck req s.cs = some v) :
    s.progress.called req = (raiseFault (.csFrame req s.cs) s).progress :=
  if_neg (by simp [State.progress, hc])

theorem issue_progress (ha : s.answer? = some ans) {st : Seq} (hs : s.st = st) {done : TxAnswer → State → State}
    (hdone : EndsStepOf st done) : (issue req done s).progress = s.progress.called req := by
  cases hc : csCheck req s.cs with
  | none => rw [issue_answered hc ha, hdone req ans s hs, called_of_csCheck hc]
  | some v => rw [issue_raises hc, called_of_violation hc]

/-- In every sequencer state but IDLE and W_SETTLE the block calls the transport with the request of R81. -/
theorem State.exists_request (hi : s.st ≠ .idle) (hw : s.st ≠ .wSettle) :
    ∃ req, s.request? = some req ∧ req.isCall = true := by
  cases hs : s.st <;> simp only [State.request?, hs, Option.some.injEq, exists_eq_left']
  case idle => exact absurd hs hi
  case wSettle => exact absurd hs hw
  all_goals rfl

/-- The answer decides neither whether the request of R81 is issued nor what follows it. -/
theorem step_progress_of_call (hf : s.fault = []) (hreq : s.request? = some req) (hcall : req.isCall = true)
    (ha : s.answer? = some ans) : ∃ t, step s = .next t ∧ t.progress = s.progress.called req := by
  cases hs : s.st <;> simp only [State.request?, hs, Option.some.injEq, reduceCtorEq] at hreq <;> subst hreq
  case wSettle => simp [Request.isCall] at hcall
  case wEwen => exact ⟨_, step_wEwen hf hs, issue_progress ha hs (endsStepOf_advance (by decide))⟩
  case wOp => exact ⟨_, step_wOp hf hs, issue_progress ha hs (endsStepOf_advance (by decide))⟩
  case wAddr => exact ⟨_, step_wAddr hf hs, issue_progress ha hs (endsStepOf_advance (by decide))⟩
  case wData => exact ⟨_, step_wData hf hs, issue_progress ha hs (endsStepOf_advance (by decide))⟩
  case wStrbOn => exact ⟨_, step_wStrbOn hf hs, issue_progress ha hs (endsStepOf_advance (by decide))⟩
  case wStrbOff => exact ⟨_, step_wStrbOff hf hs, issue_progress ha hs (endsStepOf_advance (by decide))⟩
  case wEwds => exact ⟨_, step_wEwds hf hs, issue_progress ha hs endsStepOf_encEwds⟩
  case rOp => exact ⟨_, step_rOp hf hs, issue_progress ha hs (endsStepOf_advance (by decide))⟩
  case rAddr => exact ⟨_, step_rAddr hf hs, issue_progress ha hs (endsStepOf_advance (by decide))⟩
  case rDummy => exact ⟨_, step_rDummy hf hs, issue_progress ha hs (endsStepOf_advance (by decide))⟩
  case rData => exact ⟨_, step_rData hf hs, issue_progress ha hs (endsStepOf_takeWord _)⟩

/-- In the view of R110 every request of R81 passes its check. -/
theorem csCheck_of_csFramed (hreq : s.request? = some req) (hcs : s.csFramed) : csCheck req s.cs = none := by
  rw [hcs]
  cases hs : s.st <;> simp only [State.request?, hs, Option.some.injEq, reduceCtorEq] at hreq <;> subst hreq <;> rfl

end

/-! ## Steps that call no transport -/

theorem accept_progress_with_txIn (op : HostOp) (addr : BitVec 16) (data : Word) (s : State) (answers : List TxAnswer) :
    (accept op addr data { s with txIn := answers }).progress = (accept op addr data s).progress := by
  unfold accept
  cases addrPolicy s.cfg addr <;> rfl

theorem settleDelay_progress_with_txIn (s : State) (answers : List TxAnswer) :
    (settleDelay { s with txIn := answers }).progress = (settleDelay s).progress := by
  unfold settleDelay
  cases s.settleEnds <;> rfl

theorem settleDelay_of_settleEnds {s : State} (h : s.settleEnds = true) :
    settleDelay s = advance { s with trace := s.trace ++ [⟨.delay s.cfg.tSettle, .settled⟩] } :=
  if_pos h

/-! ## Every step -/

/-- One progress `p` is where the step of `s` leads whatever the next answer is; for a framed busy block it is in the
next sequencer state and without a fault. -/
def HasNextProgress (s : State) (rest : List TxAnswer) (p : Progress) : Prop :=
  (∀ x, ∃ t, step { s with txIn := x :: rest } = .next t ∧ t.progress = p) ∧
  (s.fault = [] → s.csFramed → s.st ≠ .idle → s.settleEnds = true → p.st = s.st.next ∧ p.fault = [])

theorem hasNextProgress_of_fault {s : State} (hf : s.fault ≠ []) (rest : List TxAnswer) :
    HasNextProgress s rest s.progress :=
  ⟨fun _ => ⟨_, step_faulted ((faulted_iff _).mpr hf), rfl⟩, fun hf' => absurd hf' hf⟩

section
variable {s : State} (hf : s.fault = []) (rest : List TxAnswer)
include hf

theorem exists_hasNextProgress_of_idle (hi : s.st = .idle) : ∃ p, HasNextProgress s rest p := by
  cases hc : s.cmds with
  | nil => exact ⟨s.progress, fun _ => ⟨_, step_await hf hi hc, rfl⟩, fun _ _ hbusy => absurd hi hbusy⟩
  | cons r later =>
    exact ⟨_, fun x => ⟨_, step_present (s := { s with txIn := x :: rest }) hf hi hc,
      accept_progress_with_txIn _ _ _ { s with cmds := later } (x :: rest)⟩, fun _ _ hbusy => absurd hi hbusy⟩

theorem hasNextProgress_of_wSettle (hw : s.st = .wSettle) : HasNextProgress s rest (settleDelay s).progress := by
  refine ⟨fun x => ⟨_, step_wSettle hf hw, settleDelay_progress_with_txIn s (x :: rest)⟩, fun _ _ _ hends => ?_⟩
  rw [settleDelay_of_settleEnds hends]
  exact ⟨rfl, hf⟩

theorem hasNextProgress_of_call {req : Request} (hreq : s.request? = some req) (hcall : req.isCall = true) :
    HasNextProgress s rest (s.progress.called req) := by
  refine ⟨fun x => step_progress_of_call (s := { s with txIn := x :: rest }) hf hreq hcall rfl, fun _ hcs _ _ => ?_⟩
  rw [called_of_csCheck (csCheck_of_csFramed hreq hcs)]
  exact ⟨rfl, hf⟩

end

theorem exists_hasNextProgress (s : State) (rest : List TxAnswer) : ∃ p, HasNextProgress s rest p := by
  by_cases hf : s.fault = []
  · by_cases hi : s.st = .idle
    · exact exists_hasNextProgress_of_idle hf rest hi
    by_cases hw : s.st = .wSettle
    · exact ⟨_, hasNextProgress_of_wSettle hf rest hw⟩
    obtain ⟨req, hreq, hcall⟩ := State.exists_request hi hw
    exact ⟨_, hasNextProgress_of_call hf rest hreq hcall⟩
  · exact ⟨_, hasNextProgress_of_fault hf rest⟩

/-- Settles O49: either answer leads to the same progress, for no part of it is a function of the answer. -/
theorem noShortCircuitOnStatus : Obligations.NoShortCircuitOnStatus := by
  intro s x y rest
  obtain ⟨p, hstep, hnext⟩ := exists_hasNextProgress s rest
  obtain ⟨t, ht, htp⟩ := hstep x
  obtain ⟨u, hu, hup⟩ := hstep y
  obtain ⟨hst, hcs, hfault, hrequests, hresponses, hcmds⟩ := State.progress_eq_iff.mp (htp.trans hup.symm)
  subst htp
  exact ⟨t, u, ht, hu, hst, hcs, hfault, hrequests, hresponses, hcmds, hnext⟩

end Sys2Proof.Machine
end

section
/-! Exceptions family (60_exceptions.md): a fault is precise, sticky, and stops the block (R141). A block takes a fault
only where it has none, and a step that takes one does nothing else but consume the command it refuses. -/

namespace Sys2Proof.Machine

/-! ## A fault is precise -/

/-- `t` is `s` with its first fault raised; `op_q` and the command port apart, which a refused command has moved
(log 10), nothing else is changed. -/
def TakesFault (s t : State) : Prop :=
  s.fault = [] ∧ ∃ f op cmds, t = { s with opQ := op, cmds := cmds, fault := [f] }

theorem issue_fault_or_takesFault {s : State} (hf : s.fault = []) (req : Request) {done : TxAnswer → State → State}
    (hdone : ∀ ans t, (done ans t).fault = t.fault) :
    (issue req done s).fault = s.fault ∨ TakesFault s (issue req done s) := by
  obtain ⟨-, h⟩ | ⟨-, -, h⟩ | ⟨-, ans, -, h⟩ := issue_cases req done s <;> rw [h]
  · exact .inr ⟨hf, _, s.opQ, s.cmds, raiseFault_of_noFault hf _⟩
  · exact .inl rfl
  · exact .inl (by rw [hdone, issueAnswered_fault])

theorem accept_fault_or_takesFault {s : State} (hf : s.fault = []) (op : HostOp) (addr : BitVec 16) (data : Word)
    (rest : List (BitVec 33)) :
    (accept op addr data { s with cmds := rest }).fault = s.fault ∨
      TakesFault s (accept op addr data { s with cmds := rest }) := by
  obtain ⟨-, -, h⟩ | ⟨a, -, -, h⟩ := accept_cases op addr data { s with cmds := rest } <;> rw [h]
  · exact .inr ⟨hf, _, op, rest, raiseFault_of_noFault (s := { s with opQ := op, cmds := rest }) hf _⟩
  · exact .inl rfl

theorem settleDelay_fault (s : State) : (settleDelay s).fault = s.fault := by
  unfold settleDelay
  split <;> rfl

/-- A step leaves the fault set as it is, or takes a fault. -/
theorem step_fault_or_takesFault {s t : State} (h : step s = .next t) : t.fault = s.fault ∨ TakesFault s t := by
  have next_eq {u : State} (hu : step s = .next u) : t = u := Host.Outcome.next.inj (h.symm.trans hu)
  obtain hw | ⟨hf, -, r, rest, op, addr, data, -, ha⟩ | ⟨-, -, hd⟩ | ⟨hf, -, -, req, -, hi⟩ := step_cases s
  · exact .inl (by rw [next_eq hw])
  · exact next_eq ha ▸ accept_fault_or_takesFault hf op addr data rest
  · exact .inl (by rw [next_eq hd, settleDelay_fault])
  · obtain ⟨-, -, hu⟩ | ⟨-, hu⟩ | ⟨-, hu⟩ := hi <;> rw [next_eq hu]
    · exact issue_fault_or_takesFault hf req fun _ _ => rfl
    · exact issue_fault_or_takesFault hf req fun _ u => settleWrite_fault u
    · exact issue_fault_or_takesFault hf req fun _ _ => rfl

/-! ## A fault is sticky and stops the block -/

theorem cmdReady_of_fault {s : State} (hf : s.fault ≠ []) : s.cmdReady = false := by
  simp [State.cmdReady, (faulted_iff s).mpr hf]

theorem complete_of_fault {s : State} (hf : s.fault ≠ []) : s.complete = false := by
  simp [State.complete, (faulted_iff s).mpr hf]

/-- A machine that steps to itself stays where it is. -/
theorem run_of_step_self {M : Host.Core} {s : M.State} (h : M.step s = .next s) (n : Nat) : M.run n s = .next s := by
  induction n with
  | zero => rfl
  | succ n ih => rw [Host.Core.run, h]; exact ih

theorem run_of_fault {s : State} (hf : s.fault ≠ []) (n : Nat) : Host.Core.run Sys2Proof.core n s = .next s :=
  run_of_step_self (M := Sys2Proof.core) (step_faulted ((faulted_iff s).mpr hf)) n

/-- Settles O46: a step that changes the fault set takes a fault, and the state a fault is taken in is the last one. -/
theorem faultsStopTheBlock : Obligations.FaultsStopTheBlock := by
  refine ⟨fun s t h hne => ?_, fun n s t hf hrun => ?_⟩
  · obtain ⟨hf, f, op, cmds, rfl⟩ := (step_fault_or_takesFault h).resolve_left hne
    exact ⟨⟨f, by rw [hf]; rfl⟩, rfl, rfl, cmdReady_of_fault (List.cons_ne_nil _ _)⟩
  · obtain rfl : s = t := Host.Outcome.next.inj ((run_of_fault hf n).symm.trans hrun)
    exact ⟨rfl, rfl, rfl, cmdReady_of_fault hf, complete_of_fault hf⟩

end Sys2Proof.Machine
end

section
/-! Reset family (70_reset_and_hazards.md): the configuration is immutable for the session's lifetime (R154). No
operation of a step writes it, so no run of steps does. -/

namespace Sys2Proof.Machine

theorem accept_cfg (op : HostOp) (addr : BitVec 16) (data : Word) (s : State) :
    (accept op addr data s).cfg = s.cfg := by
  obtain ⟨-, -, h⟩ | ⟨a, -, -, h⟩ := accept_cases op addr data s <;> rw [h]
  rfl

/-- `Issue` keeps the configuration, if the rest of the step does. -/
theorem issue_cfg (req : Request) {done : TxAnswer → State → State} (hdone : ∀ ans t, (done ans t).cfg = t.cfg)
    (s : State) : (issue req done s).cfg = s.cfg := by
  obtain ⟨-, h⟩ | ⟨-, -, h⟩ | ⟨-, ans, -, h⟩ := issue_cases req done s <;> rw [h]
  · exact raiseFault_cfg _ s
  · rw [hdone, issueAnswered_cfg]

theorem settleDelay_cfg (s : State) : (settleDelay s).cfg = s.cfg := by
  unfold settleDelay
  split <;> rfl

theorem step_cfg {s t : State} (h : step s = .next t) : t.cfg = s.cfg := by
  have next_eq {u : State} (hu : step s = .next u) : t = u := Host.Outcome.next.inj (h.symm.trans hu)
  obtain hw | ⟨-, -, r, rest, op, addr, data, -, ha⟩ | ⟨-, -, hd⟩ | ⟨-, -, -, req, -, hi⟩ := step_cases s
  · rw [next_eq hw]
  · rw [next_eq ha, accept_cfg]
  · rw [next_eq hd, settleDelay_cfg]
  · obtain ⟨-, -, hu⟩ | ⟨-, hu⟩ | ⟨-, hu⟩ := hi <;> rw [next_eq hu]
    · exact issue_cfg req (fun _ => advance_cfg) s
    · exact issue_cfg req (fun _ t => (complete_cfg none _).trans (settleWrite_cfg t)) s
    · exact issue_cfg req (fun ans => takeWord_cfg _ ans.nXfer) s

/-- What every step of a machine keeps, every run of it keeps. -/
theorem run_keeps {M : Host.Core} {α : Type} {f : M.State → α} (hstep : ∀ s t, M.step s = .next t → f t = f s)
    (n : Nat) {s t : M.State} (hrun : M.run n s = .next t) : f t = f s := by
  induction n generalizing s with
  | zero => rw [Host.Outcome.next.inj hrun]
  | succ n ih =>
    rw [Host.Core.run] at hrun
    split at hrun
    · next u hu => exact (ih hrun).trans (hstep s u hu)
    · nomatch hrun
    · nomatch hrun

/-- Settles O45: no step writes the configuration. -/
theorem noStepWritesTheConfiguration : Obligations.NoStepWritesTheConfiguration := fun n _ _ hrun =>
  run_keeps (M := Sys2Proof.core) (fun _ _ => step_cfg) n hrun

end Sys2Proof.Machine
end

section
/-! Encoding family (30_encoding.md): the decoder of frames and of host records undoes the encoder, and accepts nothing
else (R64, R69 to R86); the values of the command words (R70 to R73); the two halves of a Word (R49, R50); and the bits
of a read (R25, R47). -/

namespace Sys2Proof

/-! ## Bit strings -/

/-- The bits of a value are those of its residue. -/
@[simp] theorem msbBits_mod (v n : Nat) : msbBits (v % 2 ^ n) n = msbBits v n := by
  simpa using msbBits_bitsVal (msbBits v n)

theorem msbBits_bitsVal_of_length {bits : List Bool} {n : Nat} (h : bits.length = n) :
    msbBits (bitsVal bits) n = bits := h ▸ msbBits_bitsVal bits

/-- Eight bits, read into a byte and written out again. -/
theorem msbBits_byteOf {bits : List Bool} (h : bits.length = 8) :
    msbBits (BitVec.ofNat 8 (bitsVal bits)).toNat 8 = bits := by
  rw [BitVec.toNat_ofNat, msbBits_mod, msbBits_bitsVal_of_length h]

theorem byteOf_msbBits (b : Byte) : BitVec.ofNat 8 (bitsVal (msbBits b.toNat 8)) = b := by
  rw [bitsVal_msbBits, Nat.mod_eq_of_lt b.isLt, BitVec.ofNat_toNat, BitVec.setWidth_eq]

/-- A value in two fields is the bits of the high one, then those of the low one. -/
theorem msbBits_shiftLeft_or (hi m : Nat) {lo n : Nat} (h : lo < 2 ^ n) :
    msbBits (hi <<< n ||| lo) (m + n) = msbBits hi m ++ msbBits lo n := by
  have hlow : msbBits (hi <<< n ||| lo) n = msbBits lo n := by
    rw [← msbBits_mod, Nat.or_mod_two_pow, Nat.shiftLeft_eq, Nat.mul_mod_left, Nat.zero_or, msbBits_mod]
  induction m with
  | zero => simpa [msbBits] using hlow
  | succ m ih =>
    have hbit : (hi <<< n ||| lo).testBit (m + n) = hi.testBit m := by
      have hlo : lo.testBit (m + n) = false :=
        Nat.testBit_lt_two_pow (h.trans_le (Nat.pow_le_pow_right (by decide) (Nat.le_add_left n m)))
      simp [hlo]
    rw [Nat.succ_add, msbBits, hbit, ih, msbBits, List.cons_append]

theorem msbBits_getElem? (v : Nat) {n j : Nat} (h : j < n) : (msbBits v n)[j]? = some (v.testBit (n - 1 - j)) := by
  induction n generalizing j with
  | zero => omega
  | succ n ih =>
    cases j with
    | zero => simp [msbBits]
    | succ j =>
      rw [msbBits, List.getElem?_cons_succ, ih (by omega), show n - 1 - j = n + 1 - 1 - (j + 1) by omega]

/-! ## The two bytes of a Word (R49, R50, R101, R102) -/

theorem wordAssemble_wordSplit (d : Word) : wordAssemble (wordSplit d) = d := by
  apply BitVec.eq_of_toNat_eq
  rw [wordAssemble_toNat, wordSplit, lowByte_toNat, highByte_toNat]
  omega

theorem wordSplit_wordAssemble (p : BytePair) : wordSplit (wordAssemble p) = p := by
  have hlow : lowByte (wordAssemble p) = p.b0 := by
    apply BitVec.eq_of_toNat_eq
    rw [lowByte_toNat, wordAssemble_toNat]
    omega
  have hhigh : highByte (wordAssemble p) = p.b1 := by
    apply BitVec.eq_of_toNat_eq
    rw [highByte_toNat, wordAssemble_toNat]
    omega
  rw [wordSplit, hlow, hhigh]

/-- Settles O8: a Word is `256 · high + low`, so its halves are its residue and its quotient by 256. -/
theorem wordSplitAndAssembleRoundTrip : Obligations.WordSplitAndAssembleRoundTrip :=
  ⟨fun d => ⟨lowByte_toNat d, highByte_toNat d, wordAssemble_wordSplit d⟩,
    fun p => ⟨wordAssemble_toNat p, wordSplit_wordAssemble p⟩⟩

theorem lowByte_eq_ofNat (d : Word) : lowByte d = BitVec.ofNat 8 (d.toNat % 256) := by
  apply BitVec.eq_of_toNat_eq
  rw [lowByte_toNat, BitVec.toNat_ofNat, Nat.mod_mod]

theorem highByte_eq_ofNat (d : Word) : highByte d = BitVec.ofNat 8 (d.toNat / 256) := by
  apply BitVec.eq_of_toNat_eq
  rw [highByte_toNat, BitVec.toNat_ofNat, Nat.mod_eq_of_lt (by omega)]

/-! ## Host records (R85) -/

theorem encodeHost_toNat (op : BitVec 1) (addr data : BitVec 16) :
    (encodeHost op addr data).toNat = op.toNat * 2 ^ 32 + addr.toNat * 2 ^ 16 + data.toNat := by
  have hop := op.isLt
  have haddr := addr.isLt
  have hdata := data.isLt
  rw [encodeHost, BitVec.toNat_append, BitVec.toNat_append, ← Nat.shiftLeft_add_eq_or_of_lt hdata,
    ← Nat.shiftLeft_add_eq_or_of_lt haddr, Nat.shiftLeft_eq, Nat.shiftLeft_eq]
  omega

@[simp] theorem encodeHost_op (op : BitVec 1) (addr data : BitVec 16) :
    (encodeHost op addr data)[32] = decide (op ≠ 0) := by
  have hop : op = 0 ∨ op = 1 := by revert op; decide
  rw [BitVec.getElem_eq_testBit_toNat, encodeHost_toNat, Nat.testBit_eq_decide_div_mod_eq, decide_eq_decide]
  obtain rfl | rfl := hop <;> simp <;> omega

@[simp] theorem encodeHost_addr (op : BitVec 1) (addr data : BitVec 16) :
    (encodeHost op addr data).extractLsb' 16 16 = addr := by
  apply BitVec.eq_of_toNat_eq
  rw [BitVec.extractLsb'_toNat, encodeHost_toNat, Nat.shiftRight_eq_div_pow]
  omega

@[simp] theorem encodeHost_data (op : BitVec 1) (addr data : BitVec 16) :
    (encodeHost op addr data).extractLsb' 0 16 = data := by
  apply BitVec.eq_of_toNat_eq
  rw [BitVec.extractLsb'_toNat, encodeHost_toNat, Nat.shiftRight_zero]
  omega

theorem decodeHost_encodeHost (op : BitVec 1) (addr data : BitVec 16) :
    decodeHost (encodeHost op addr data) = if op = 0 then .writeWord addr data else .readWord addr := by
  by_cases hop : op = 0 <;> simp [decodeHost, hop]

theorem encodeHost_fields (r : BitVec 33) :
    r = encodeHost (r.extractLsb' 32 1) (r.extractLsb' 16 16) (r.extractLsb' 0 16) := by
  apply BitVec.eq_of_toNat_eq
  rw [encodeHost_toNat]
  simp only [BitVec.extractLsb'_toNat, Nat.shiftRight_eq_div_pow]
  omega

/-- Settles O6: the record is the sum of its fields' values, which are read back from it by division. -/
theorem hostRecordsAllDecode : Obligations.HostRecordsAllDecode :=
  ⟨fun op addr data => ⟨encodeHost_toNat op addr data, decodeHost_encodeHost op addr data⟩,
    fun r => ⟨_, _, _, encodeHost_fields r⟩⟩

/-! ## The rows of a profile -/

/-- A command word of profile `p` is one of its four rows. -/
theorem Instr.row_of_profile? {i : Instr} {p : Profile} (h : i.profile? = some p) :
    i = ewenOf p ∨ i = ewdsOf p ∨ (∃ a d, i = writeOf p a d) ∨ ∃ a, i = readOf p a := by
  cases i <;> simp only [profile?, Option.some.injEq, reduceCtorEq] at h <;> subst h
  case ewenP6 | ewenP7 | ewenP8 => exact .inl rfl
  case ewdsP6 | ewdsP7 | ewdsP8 => exact .inr (.inl rfl)
  case writeP6 a d | writeP7 a d | writeP8 a d => exact .inr (.inr (.inl ⟨a.toNat, d, by simp [writeOf]⟩))
  case readP6 a | readP7 a | readP8 a => exact .inr (.inr (.inr ⟨a.toNat, by simp [readOf]⟩))

theorem Instr.writeOf_mod (p : Profile) (a : Nat) (d : Word) : writeOf p (a % 2 ^ p.addrBits) d = writeOf p a d := by
  cases p <;> simp [writeOf, Profile.addrBits, ← BitVec.toNat_inj]

theorem Instr.readOf_mod (p : Profile) (a : Nat) : readOf p (a % 2 ^ p.addrBits) = readOf p a := by
  cases p <;> simp [readOf, Profile.addrBits, ← BitVec.toNat_inj]

theorem Instr.writeArgs?_writeOf (p : Profile) (a : Nat) (d : Word) :
    (writeOf p a d).writeArgs? = some (a % 2 ^ p.addrBits, d) := by
  cases p <;> simp [writeOf, writeArgs?, Profile.addrBits]

theorem Instr.readArg?_readOf (p : Profile) (a : Nat) : (readOf p a).readArg? = some (a % 2 ^ p.addrBits) := by
  cases p <;> simp [readOf, readArg?, Profile.addrBits]

theorem Instr.writeArgs?_ewdsOf (p : Profile) : (ewdsOf p).writeArgs? = none := by cases p <;> rfl

theorem encode_ewenOf (p : Profile) : encode (Instr.ewenOf p) = .frame p (encodeEwen p) := by cases p <;> rfl

theorem encode_ewdsOf (p : Profile) : encode (Instr.ewdsOf p) = .frame p (encodeEwds p) := by cases p <;> rfl

theorem encodeWrite_mod (p : Profile) (a : Nat) (d : Word) :
    encodeWrite p (a % 2 ^ p.addrBits) d = encodeWrite p a d := by
  rw [encodeWrite, msbBits_mod, encodeWrite]

theorem encodeRead_mod (p : Profile) (a : Nat) : encodeRead p (a % 2 ^ p.addrBits) = encodeRead p a := by
  rw [encodeRead, msbBits_mod, encodeRead]

theorem encode_writeOf (p : Profile) (a : Nat) (d : Word) :
    encode (Instr.writeOf p a d) = .frame p (encodeWrite p a d) := by
  rw [← encodeWrite_mod]
  cases p <;> simp [Instr.writeOf, encode, Profile.addrBits]

theorem encode_readOf (p : Profile) (a : Nat) : encode (Instr.readOf p a) = .frame p (encodeRead p a) := by
  rw [← encodeRead_mod]
  cases p <;> simp [Instr.readOf, encode, Profile.addrBits]

/-! ## The frame decoder undoes the encoder (R83) -/

theorem decodeFrame_encodeEwen (p : Profile) : decodeFrame p (encodeEwen p) = .ok (Instr.ewenOf p) := by
  cases p <;> rfl

theorem decodeFrame_encodeEwds (p : Profile) : decodeFrame p (encodeEwds p) = .ok (Instr.ewdsOf p) := by
  cases p <;> rfl

/-- The address and the two data bytes of a WRITE frame, cut apart by their lengths, are what was put in. -/
theorem decodeFrame_encodeWrite (p : Profile) (a : Nat) (d : Word) :
    decodeFrame p (encodeWrite p a d) = .ok (Instr.writeOf p a d) := by
  have hword : wordAssemble ⟨lowByte d, highByte d⟩ = d := wordAssemble_wordSplit d
  have haddr : Instr.writeOf p (bitsVal (msbBits a p.addrBits)) d = Instr.writeOf p a d := by
    rw [bitsVal_msbBits, Instr.writeOf_mod]
  simp [encodeWrite, decodeFrame, decodeWrite, List.take_left', List.drop_left', -bitsVal_msbBits, byteOf_msbBits,
    hword, haddr]

theorem decodeFrame_encodeRead (p : Profile) (a : Nat) :
    decodeFrame p (encodeRead p a) = .ok (Instr.readOf p a) := by
  simp [encodeRead, decodeFrame, decodeRead, List.take_left', List.drop_left', Instr.readOf_mod]

/-- Settles O2: a command word is a row of its profile, whose frame is cut at the lengths it was put together with; a
host record gives its fields back. -/
theorem decodeOfEncodeIsTheInstruction : Obligations.DecodeOfEncodeIsTheInstruction := by
  intro i
  cases hp : i.profile? with
  | none =>
    cases i <;> simp only [Instr.profile?, reduceCtorEq] at hp
    · exact congrArg Except.ok (decodeHost_encodeHost 0 _ _)
    · exact congrArg Except.ok (decodeHost_encodeHost 1 _ 0)
  | some p =>
    obtain rfl | rfl | ⟨a, d, rfl⟩ | ⟨a, rfl⟩ := Instr.row_of_profile? hp
    · rw [encode_ewenOf]; exact decodeFrame_encodeEwen p
    · rw [encode_ewdsOf]; exact decodeFrame_encodeEwds p
    · rw [encode_writeOf]; exact decodeFrame_encodeWrite p a d
    · rw [encode_readOf]; exact decodeFrame_encodeRead p a

/-! ## It accepts nothing else (R83, R86) -/

theorem encode_of_decodeEnable {p : Profile} {field : List Bool} {i : Instr} (h : decodeEnable p field = .ok i) :
    encode i = .frame p (true :: false :: false :: field) := by
  unfold decodeEnable at h
  split at h
  · cases h
  split at h
  · next hones =>
    obtain rfl := Except.ok.inj h
    rw [encode_ewenOf, hones]
    cases p <;> rfl
  split at h
  · next hzeros =>
    obtain rfl := Except.ok.inj h
    rw [encode_ewdsOf, hzeros]
    cases p <;> rfl
  · split at h <;> cases h

/-- The address field and the two bytes that were cut from the frame make it up again. -/
theorem encode_of_decodeWrite {p : Profile} {rest : List Bool} {i : Instr} (h : decodeWrite p rest = .ok i) :
    encode i = .frame p (true :: false :: true :: rest) := by
  unfold decodeWrite at h
  split at h
  · cases h
  · next hlen =>
    replace hlen : rest.length = p.addrBits + 16 := not_not.mp hlen
    obtain rfl := Except.ok.inj h
    have haddr : (rest.take p.addrBits).length = p.addrBits := by simp [hlen]
    have hlow : ((rest.drop p.addrBits).take 8).length = 8 := by simp [hlen]
    have hhigh : ((rest.drop p.addrBits).drop 8).length = 8 := by simp [hlen]
    have hsplit := wordSplit_wordAssemble ⟨BitVec.ofNat 8 (bitsVal ((rest.drop p.addrBits).take 8)),
      BitVec.ofNat 8 (bitsVal ((rest.drop p.addrBits).drop 8))⟩
    obtain ⟨hb0, hb1⟩ := BytePair.mk.inj hsplit
    rw [encode_writeOf, encodeWrite, hb0, hb1, msbBits_bitsVal_of_length haddr, msbBits_byteOf hlow,
      msbBits_byteOf hhigh]
    simp

theorem encode_of_decodeRead {p : Profile} {rest : List Bool} {i : Instr} (h : decodeRead p rest = .ok i) :
    encode i = .frame p (true :: true :: false :: rest) := by
  unfold decodeRead at h
  split at h
  · cases h
  · next hlen =>
    replace hlen : rest.length = p.addrBits + 1 := not_not.mp hlen
    split at h
    · next hdummy =>
      obtain rfl := Except.ok.inj h
      have haddr : (rest.take p.addrBits).length = p.addrBits := by simp [hlen]
      have hrest : rest.take p.addrBits ++ [false] = rest := hdummy ▸ List.take_append_drop p.addrBits rest
      rw [encode_readOf, encodeRead, msbBits_bitsVal_of_length haddr, List.append_assoc, hrest]
      rfl
    · cases h

/-- Settles O3: each branch of the decoder that answers an instruction has compared or cut up the whole bit string. -/
theorem decodedFrameIsTheEncodedOne : Obligations.DecodedFrameIsTheEncodedOne := by
  intro p bits i h
  unfold decodeFrame at h
  split at h
  · cases h
  · exact encode_of_decodeEnable h
  · exact encode_of_decodeWrite h
  · exact encode_of_decodeRead h
  · cases h
  · cases h

/-- What a frame of profile `p` stores under is an address of `p`'s space. -/
theorem writeArgs?_lt_of_decodeFrame {p : Profile} {bits : List Bool} {i : Instr} (h : decodeFrame p bits = .ok i)
    {a : Nat} {d : Word} (hargs : i.writeArgs? = some (a, d)) : a < 2 ^ p.addrBits := by
  have hencode := decodedFrameIsTheEncodedOne p bits i h
  cases i <;> simp only [Instr.writeArgs?, Option.some.injEq, Prod.mk.injEq, reduceCtorEq] at hargs
  all_goals
    obtain ⟨rfl, -⟩ := hargs
    obtain ⟨rfl, -⟩ := Encoded.frame.inj hencode
    exact BitVec.isLt _

/-- Settles O5: each pattern meets its own branch; the top two bits of an enable field of all ones are ones, and of one
of all zeros zeros. -/
theorem neverEmittedPatternsAreRefused : Obligations.NeverEmittedPatternsAreRefused := by
  intro p f
  refine ⟨rfl, rfl, fun hlen => ?_⟩
  have hones : List.replicate p.addrBits true = true :: true :: List.replicate (p.addrBits - 2) true := by
    cases p <;> rfl
  have hzeros : List.replicate p.addrBits false = false :: false :: List.replicate (p.addrBits - 2) false := by
    cases p <;> rfl
  simp +contextual [decodeFrame, decodeEnable, hlen, hones, hzeros]

/-! ## The command words (R70 to R73) -/

/-- The command word of a frame is the number of its first `C` bits. -/
theorem tableWord_of_encode {i : Instr} {p : Profile} {w : Nat} {operand : List Bool} (hw : w < 2 ^ p.cmdBits)
    (h : encode i = .frame p (msbBits w p.cmdBits ++ operand)) : i.tableWord = w := by
  simp [Instr.tableWord, h, List.take_left', Nat.mod_eq_of_lt hw]

/-- A word whose highest set bit is the start bit of profile `p` stands for `p`. -/
theorem profileOfWord_eq_some {p : Profile} {w : Nat} (hlo : 4 <<< p.addrBits ≤ w) (hhi : w < 2 ^ p.cmdBits) :
    profileOfWord w = some p := by
  cases p <;> simp only [Profile.addrBits, Profile.cmdBits, Nat.reduceShiftLeft, Nat.reduceAdd,
    Nat.reducePow] at hlo hhi
  case p6 => rw [profileOfWord, if_neg (by omega), if_pos (by omega)]
  case p7 => rw [profileOfWord, if_neg (by omega), if_neg (by omega), if_pos (by omega)]
  case p8 => rw [profileOfWord, if_neg (by omega), if_neg (by omega), if_neg (by omega), if_pos (by omega)]

/-- A command word that encodes `i` with zeros after it is the table word of `i`. -/
theorem decodeTableWord_of_encode {i : Instr} {p : Profile} {w : Nat} (hlo : 4 <<< p.addrBits ≤ w)
    (hhi : w < 2 ^ p.cmdBits)
    (h : encode i = .frame p (msbBits w p.cmdBits ++ operandZeros (msbBits w p.cmdBits))) :
    decodeTableWord 16 w = some i := by
  have hdecode : decode (encode i) = .ok i := decodeOfEncodeIsTheInstruction i
  rw [h] at hdecode
  simp [decodeTableWord, decodeCommandWord, profileOfWord_eq_some hlo hhi, hdecode, Except.toOption]

/-- A 3-bit opcode and an address, as one number and as bits (R72, R73). -/
theorem msbBits_opcode_address (op : Nat) {p : Profile} {a : Nat} (ha : a < 2 ^ p.addrBits) :
    msbBits (op <<< p.addrBits ||| a) p.cmdBits = msbBits op 3 ++ msbBits a p.addrBits := by
  rw [Profile.cmdBits, Nat.add_comm, msbBits_shiftLeft_or op 3 ha]

/-- An opcode `1xx` puts the start bit at the top of the command word. -/
theorem opcode_address_bounds {op : Nat} (hlo : 4 ≤ op) (hhi : op < 8) {p : Profile} {a : Nat}
    (ha : a < 2 ^ p.addrBits) :
    4 <<< p.addrBits ≤ op <<< p.addrBits ||| a ∧ op <<< p.addrBits ||| a < 2 ^ p.cmdBits := by
  rw [← Nat.shiftLeft_add_eq_or_of_lt ha, Profile.cmdBits, pow_add, Nat.shiftLeft_eq, Nat.shiftLeft_eq]
  constructor <;> nlinarith [ha]

theorem encodeEwen_eq_msbBits (p : Profile) :
    encodeEwen p = msbBits ((4 <<< p.addrBits) + (2 ^ p.addrBits - 1)) p.cmdBits := by cases p <;> rfl

theorem encodeEwds_eq_msbBits (p : Profile) : encodeEwds p = msbBits (4 <<< p.addrBits) p.cmdBits := by
  cases p <;> rfl

theorem encodeWrite_eq_msbBits {p : Profile} {a : Nat} (ha : a < 2 ^ p.addrBits) (d : Word) :
    encodeWrite p a d = msbBits (5 <<< p.addrBits ||| a) p.cmdBits ++
      (msbBits (lowByte d).toNat 8 ++ msbBits (highByte d).toNat 8) := by
  rw [msbBits_opcode_address 5 ha, encodeWrite, List.append_assoc]
  rfl

theorem encodeRead_eq_msbBits {p : Profile} {a : Nat} (ha : a < 2 ^ p.addrBits) :
    encodeRead p a = msbBits (6 <<< p.addrBits ||| a) p.cmdBits ++ [false] := by
  rw [msbBits_opcode_address 6 ha, encodeRead]
  rfl

/-- Settles O1: the decoder computes each row. -/
theorem tableWordsDecode : Obligations.TableWordsDecode := by
  unfold Obligations.TableWordsDecode
  decide

end Sys2Proof
end

section
/-! Encoding family (30_encoding.md), on the wire: the command words as the block sends them (R70 to R73, R89 to R97),
and the bits of a read (R25, R47). -/

namespace Sys2Proof.Machine

/-! ## The wire bits of the requests (R89 to R97) -/

theorem reqEwen_wireBits_eq_encodeEwen (p : Profile) : (reqEwen p).wireBits = encodeEwen p := by cases p <;> rfl

theorem reqEwds_wireBits_eq_encodeEwds (p : Profile) : (reqEwds p).wireBits = encodeEwds p := by cases p <;> rfl

theorem reqData_wireBits (d : Word) :
    (reqData d).wireBits = msbBits (lowByte d).toNat 8 ++ msbBits (highByte d).toNat 8 := by
  have hbuf : bufferBits [lowByte d, highByte d] = msbBits (lowByte d).toNat 8 ++ msbBits (highByte d).toNat 8 := by
    rw [bufferBits_cons, bufferBits_singleton]
  rw [reqData, Request.wireBits, hbuf]
  exact List.take_of_length_le (by simp [TxUnit.bitCount])

/-- The opcode, the address and the data of a WRITE_WORD make up the WRITE frame (R76). -/
theorem writeFrame_wireBits {p : Profile} {a : Nat} (ha : a < 2 ^ p.addrBits) (d : Word) :
    reqWriteOp.wireBits ++ (reqAddr p a).wireBits ++ (reqData d).wireBits = encodeWrite p a d := by
  rw [reqAddr_wireBits ha, reqData_wireBits, encodeWrite, ← List.append_assoc]
  rfl

/-- The opcode, the address and the dummy bit of a READ_WORD make up the READ frame (R78). -/
theorem readFrame_wireBits {p : Profile} {a : Nat} (ha : a < 2 ^ p.addrBits) :
    reqReadOp.wireBits ++ (reqAddr p a).wireBits ++ reqDummy.wireBits = encodeRead p a := by
  rw [reqAddr_wireBits ha, encodeRead]
  rfl

/-- Settles O9: each request drives the units of its buffer that its length names. -/
theorem requestsDriveTheirWireBits : Obligations.RequestsDriveTheirWireBits := fun p a d ha =>
  ⟨reqEwen_wireBits_eq_encodeEwen p, reqEwds_wireBits_eq_encodeEwds p, rfl, rfl, reqAddr_wireBits ha,
    by rw [reqData_wireBits, lowByte_toNat, highByte_toNat], rfl, rfl, rfl⟩

/-! ## The command words (R70 to R73) -/

theorem encode_writeOf_zero {p : Profile} {a : Nat} (ha : a < 2 ^ p.addrBits) :
    encode (Instr.writeOf p a 0) = .frame p (msbBits (5 <<< p.addrBits ||| a) p.cmdBits ++
      operandZeros (msbBits (5 <<< p.addrBits ||| a) p.cmdBits)) := by
  rw [encode_writeOf, encodeWrite_eq_msbBits ha, msbBits_opcode_address 5 ha]
  rfl

theorem encode_readOf_eq_msbBits {p : Profile} {a : Nat} (ha : a < 2 ^ p.addrBits) :
    encode (Instr.readOf p a) = .frame p (msbBits (6 <<< p.addrBits ||| a) p.cmdBits ++
      operandZeros (msbBits (6 <<< p.addrBits ||| a) p.cmdBits)) := by
  rw [encode_readOf, encodeRead_eq_msbBits ha, msbBits_opcode_address 6 ha]
  rfl

theorem encode_ewenOf_eq_msbBits (p : Profile) :
    encode (Instr.ewenOf p) = .frame p (msbBits ((4 <<< p.addrBits) + (2 ^ p.addrBits - 1)) p.cmdBits ++
      operandZeros (msbBits ((4 <<< p.addrBits) + (2 ^ p.addrBits - 1)) p.cmdBits)) := by
  rw [encode_ewenOf, ← encodeEwen_eq_msbBits, show operandZeros (encodeEwen p) = [] from rfl, List.append_nil]

theorem encode_ewdsOf_eq_msbBits (p : Profile) :
    encode (Instr.ewdsOf p) = .frame p (msbBits (4 <<< p.addrBits) p.cmdBits ++
      operandZeros (msbBits (4 <<< p.addrBits) p.cmdBits)) := by
  rw [encode_ewdsOf, ← encodeEwds_eq_msbBits, show operandZeros (encodeEwds p) = [] from rfl, List.append_nil]

/-- Settles O4: each command word is the first `C` bits of its instruction's frame, an opcode shifted over the address;
those bits are what its requests drive, and with zeros after them they decode to it. -/
theorem commandWordValues : Obligations.CommandWordValues := by
  intro p a d ha
  refine ⟨?_, ?_, ?_, ?_⟩
  · have hhi : (4 <<< p.addrBits) + (2 ^ p.addrBits - 1) < 2 ^ p.cmdBits := by cases p <;> decide
    have h := encode_ewenOf_eq_msbBits p
    refine ⟨tableWord_of_encode hhi h, decodeTableWord_of_encode (Nat.le_add_right _ _) hhi h, ?_, rfl, rfl⟩
    rw [reqEwen_wireBits_eq_encodeEwen, encodeEwen_eq_msbBits]
  · have hhi : 4 <<< p.addrBits < 2 ^ p.cmdBits := by cases p <;> decide
    have h := encode_ewdsOf_eq_msbBits p
    refine ⟨tableWord_of_encode hhi h, decodeTableWord_of_encode le_rfl hhi h, ?_, rfl, rfl⟩
    rw [reqEwds_wireBits_eq_encodeEwds, encodeEwds_eq_msbBits]
  · obtain ⟨hlo, hhi⟩ := opcode_address_bounds (op := 5) (by decide) (by decide) ha
    have h : encode (Instr.writeOf p a d) = .frame p (msbBits (5 <<< p.addrBits ||| a) p.cmdBits ++
        (msbBits (lowByte d).toNat 8 ++ msbBits (highByte d).toNat 8)) := by
      rw [encode_writeOf, encodeWrite_eq_msbBits ha]
    refine ⟨tableWord_of_encode hhi h, decodeTableWord_of_encode hlo hhi (encode_writeOf_zero ha), ?_, rfl, rfl, rfl,
      rfl⟩
    rw [reqAddr_wireBits ha, msbBits_opcode_address 5 ha]
    rfl
  · obtain ⟨hlo, hhi⟩ := opcode_address_bounds (op := 6) (by decide) (by decide) ha
    have h := encode_readOf_eq_msbBits ha
    refine ⟨tableWord_of_encode hhi h, decodeTableWord_of_encode hlo hhi h, ?_, rfl, rfl⟩
    rw [reqAddr_wireBits ha, msbBits_opcode_address 6 ha]
    rfl

/-! ## The bits of a read (R25, R47) -/

/-- Bit `j` of the `k`-th eight of a byte list on the wire is bit `7 - j` of byte `k`. -/
theorem bufferBits_getElem? (buf : List Byte) (k : Nat) {j : Nat} (hj : j < 8) :
    (bufferBits buf)[8 * k + j]? = buf[k]?.map (fun b => b.getLsbD (7 - j)) := by
  induction buf generalizing k with
  | nil => rfl
  | cons b buf ih =>
    rw [bufferBits_cons]
    cases k with
    | zero =>
      rw [List.getElem?_append_left (by simpa using hj), Nat.mul_zero, Nat.zero_add, msbBits_getElem? _ hj]
      rfl
    | succ k =>
      rw [List.getElem?_append_right (by simp; omega), msbBits_length, show 8 * (k + 1) + j - 8 = 8 * k + j by omega,
        ih k, List.getElem?_cons_succ]

theorem bufferBits_clockIn {n : Nat} {bits : List Bool} (h : bits.length = 8 * n) :
    bufferBits (clockIn n bits) = bits := by
  induction n generalizing bits with
  | zero => exact (List.length_eq_zero_iff.mp h).symm
  | succ n ih =>
    rw [clockIn, bufferBits_cons, msbBits_byteOf (by simp; omega), ih (by simp; omega), List.take_append_drop]

theorem lineBits_length (s : State) (ans : TxAnswer) (n : Nat) : (s.lineBits ans n).length = 8 * n := by
  simp [State.lineBits]

/-- The bytes an answer lists stand first in the buffer. -/
theorem received_getElem?_of_listed (s : State) (ans : TxAnswer) {n k : Nat} (hn : k < n) (hk : k < ans.rx.length) :
    (s.received ans n)[k]? = ans.rx[k]? := by
  rw [State.received, List.getElem?_append_left (by simp; omega), List.getElem?_take_of_lt hn]

theorem received_of_nil_eq_clockIn (s : State) {ans : TxAnswer} (h : ans.rx = []) (n : Nat) :
    s.received ans n = clockIn n (s.lineBits ans n) := by
  simp [State.received, h]

/-- What answers a request of R81 clocked in the bits the request asks for. -/
theorem replyTo_bitsIn_length {s : State} {req : Request} (ans : TxAnswer) :
    (replyTo req ans s).bitsIn.length = req.readBits := by
  cases req with
  | write u n b acs dcs => rfl
  | read n dcs => simp [replyTo, Reply.bitsIn, Request.readBits]
  | delay t => rfl

/-- Settles O11: the bytes clocked in, written out again, are the bits; so bit `j` of the `k`-th eight is found in both.
The line a step adds is that of its state's request and the reply to it. -/
theorem readBitsFillBytesMsbFirst : Obligations.ReadBitsFillBytesMsbFirst := by
  refine ⟨fun n bits h => ⟨clockIn_length n bits, bufferBits_clockIn h, fun k j _ hj => ?_⟩,
    fun s ans n => ⟨received_length s ans n, fun k hn hk => received_getElem?_of_listed s ans hn hk,
      fun h => ⟨received_of_nil_eq_clockIn s h n, lineBits_length s ans n⟩⟩, fun s t h e he => ?_⟩
  · rw [← bufferBits_getElem? _ k hj, bufferBits_clockIn h]
  · obtain htrace | ⟨req, ans, -, htrace⟩ := step_trace h
    · exact .inl (htrace ▸ he)
    · rw [htrace, List.mem_append, List.mem_singleton] at he
      exact he.imp_right (by rintro rfl; exact replyTo_bitsIn_length ans)

end Sys2Proof.Machine
end

section
/-! What a step leads to, said once for every sequencer state: the rest of a step after its call (R116 to R130), the
equation of a step that calls the transport, and the inversion of a step. -/

namespace Sys2Proof.Machine

/-! ## The rest of a step after its call -/

/-- What the step of `s` does with the answer once the request of its sequencer state is issued: W_EWDS and R_DATA
complete the transaction (R124, R130), and every other state goes on to the next one (R134). -/
def State.finish (s : State) (ans : TxAnswer) (t : State) : State :=
  match s.st with
  | .wEwds => Machine.complete none (settleWrite t)
  | .rData => takeWord (pairOf (s.received ans 2)) ans.nXfer t
  | _ => advance t

theorem settleWrite_resultStatus (t : State) : (settleWrite t).resultStatus = t.resultStatus := by
  simp [State.resultStatus]

section
variable {s : State}

theorem finish_of_wEwds (h : s.st = .wEwds) : s.finish = fun _ t => complete none (settleWrite t) := by
  funext ans t
  simp [State.finish, h]

theorem finish_of_rData (h : s.st = .rData) :
    s.finish = fun ans t => takeWord (pairOf (s.received ans 2)) ans.nXfer t := by
  funext ans t
  simp [State.finish, h]

theorem finish_of_not_last (hw : s.st ≠ .wEwds) (hr : s.st ≠ .rData) : s.finish = fun _ t => advance t := by
  funext ans t
  cases hs : s.st <;> simp_all [State.finish]

end

section
variable (s : State) (ans : TxAnswer) (t : State)

/-- The three things the rest of a step can be. -/
theorem finish_cases :
    (s.st = .wEwds ∧ s.finish ans t = complete none (settleWrite t)) ∨
    (s.st = .rData ∧ s.finish ans t = takeWord (pairOf (s.received ans 2)) ans.nXfer t) ∨
    (s.st ≠ .wEwds ∧ s.st ≠ .rData ∧ s.finish ans t = advance t) := by
  by_cases hw : s.st = .wEwds
  · exact .inl ⟨hw, by rw [finish_of_wEwds hw]⟩
  by_cases hr : s.st = .rData
  · exact .inr (.inl ⟨hr, by rw [finish_of_rData hr]⟩)
  · exact .inr (.inr ⟨hw, hr, by rw [finish_of_not_last hw hr]⟩)

@[simp] theorem finish_cfg : (s.finish ans t).cfg = t.cfg := by
  obtain ⟨-, h⟩ | ⟨-, h⟩ | ⟨-, -, h⟩ := finish_cases s ans t <;> simp [h]
@[simp] theorem finish_st : (s.finish ans t).st = t.st.next := by
  obtain ⟨-, h⟩ | ⟨-, h⟩ | ⟨-, -, h⟩ := finish_cases s ans t <;> simp [h]
@[simp] theorem finish_opQ : (s.finish ans t).opQ = t.opQ := by
  obtain ⟨-, h⟩ | ⟨-, h⟩ | ⟨-, -, h⟩ := finish_cases s ans t <;> simp [h]
@[simp] theorem finish_addrQ : (s.finish ans t).addrQ = t.addrQ := by
  obtain ⟨-, h⟩ | ⟨-, h⟩ | ⟨-, -, h⟩ := finish_cases s ans t <;> simp [h]
@[simp] theorem finish_dataQ : (s.finish ans t).dataQ = t.dataQ := by
  obtain ⟨-, h⟩ | ⟨-, h⟩ | ⟨-, -, h⟩ := finish_cases s ans t <;> simp [h]
@[simp] theorem finish_cs : (s.finish ans t).cs = t.cs := by
  obtain ⟨-, h⟩ | ⟨-, h⟩ | ⟨-, -, h⟩ := finish_cases s ans t <;> simp [h]
@[simp] theorem finish_lastStatus : (s.finish ans t).lastStatus = t.lastStatus := by
  obtain ⟨-, h⟩ | ⟨-, h⟩ | ⟨-, -, h⟩ := finish_cases s ans t <;> simp [h]
@[simp] theorem finish_firstFail : (s.finish ans t).firstFail = t.firstFail := by
  obtain ⟨-, h⟩ | ⟨-, h⟩ | ⟨-, -, h⟩ := finish_cases s ans t <;> simp [h]
@[simp] theorem finish_fault : (s.finish ans t).fault = t.fault := by
  obtain ⟨-, h⟩ | ⟨-, h⟩ | ⟨-, -, h⟩ := finish_cases s ans t <;> simp [h]
@[simp] theorem finish_cmds : (s.finish ans t).cmds = t.cmds := by
  obtain ⟨-, h⟩ | ⟨-, h⟩ | ⟨-, -, h⟩ := finish_cases s ans t <;> simp [h]
@[simp] theorem finish_accepted : (s.finish ans t).accepted = t.accepted := by
  obtain ⟨-, h⟩ | ⟨-, h⟩ | ⟨-, -, h⟩ := finish_cases s ans t <;> simp [h]
@[simp] theorem finish_trace : (s.finish ans t).trace = t.trace := by
  obtain ⟨-, h⟩ | ⟨-, h⟩ | ⟨-, -, h⟩ := finish_cases s ans t <;> simp [h]
@[simp] theorem finish_txIn : (s.finish ans t).txIn = t.txIn := by
  obtain ⟨-, h⟩ | ⟨-, h⟩ | ⟨-, -, h⟩ := finish_cases s ans t <;> simp [h]
@[simp] theorem finish_transport : (s.finish ans t).transport = t.transport := by
  obtain ⟨-, h⟩ | ⟨-, h⟩ | ⟨-, -, h⟩ := finish_cases s ans t <;> simp [h]
@[simp] theorem finish_settleEnds : (s.finish ans t).settleEnds = t.settleEnds := by
  obtain ⟨-, h⟩ | ⟨-, h⟩ | ⟨-, -, h⟩ := finish_cases s ans t <;> simp [h]
@[simp] theorem finish_writeCycle : (s.finish ans t).writeCycle = t.writeCycle := by
  obtain ⟨-, h⟩ | ⟨-, h⟩ | ⟨-, -, h⟩ := finish_cases s ans t <;> simp [h]
@[simp] theorem finish_deviceProfile : (s.finish ans t).deviceProfile = t.deviceProfile := by
  obtain ⟨-, h⟩ | ⟨-, h⟩ | ⟨-, -, h⟩ := finish_cases s ans t <;> simp [h]
@[simp] theorem finish_draws : (s.finish ans t).draws = t.draws := by
  obtain ⟨-, h⟩ | ⟨-, h⟩ | ⟨-, -, h⟩ := finish_cases s ans t <;> simp [h]

theorem finish_mem : (s.finish ans t).mem = if s.st = .wEwds then (settleWrite t).mem else t.mem := by
  obtain ⟨hs, h⟩ | ⟨hs, h⟩ | ⟨hw, -, h⟩ := finish_cases s ans t <;> simp [*]

theorem finish_rxQ : (s.finish ans t).rxQ = if s.st = .rData then pairOf (s.received ans 2) else t.rxQ := by
  obtain ⟨hs, h⟩ | ⟨hs, h⟩ | ⟨-, hr, h⟩ := finish_cases s ans t <;> simp [*]

theorem finish_nxQ : (s.finish ans t).nxQ = if s.st = .rData then ans.nXfer else t.nxQ := by
  obtain ⟨hs, h⟩ | ⟨hs, h⟩ | ⟨-, hr, h⟩ := finish_cases s ans t <;> simp [*]

theorem finish_responses : (s.finish ans t).responses =
    if s.st = .wEwds then t.responses ++ [⟨t.resultStatus, none⟩]
    else if s.st = .rData then t.responses ++ [⟨t.resultStatus, some (wordAssemble (pairOf (s.received ans 2)))⟩]
    else t.responses := by
  obtain ⟨hs, h⟩ | ⟨hs, h⟩ | ⟨hw, hr, h⟩ := finish_cases s ans t <;> simp [*, settleWrite_resultStatus]

end

/-- A call has had its response in the step that goes on to IDLE, and no other (R134). -/
theorem finish_responses_length {s : State} (hi : s.st ≠ .idle) (ans : TxAnswer) (t : State) :
    (s.finish ans t).responses.length = t.responses.length + if s.st.next = .idle then 1 else 0 := by
  rw [finish_responses]
  cases hs : s.st <;> simp_all [Seq.next]

/-! ## The step -/

section
variable {s : State} {req : Request}

theorem request?_eq_some_of_wSettle (hs : s.st = .wSettle) : s.request? = some (.delay s.cfg.tSettle) := by
  simp [State.request?, hs]

theorem not_idle_of_request? (h : s.request? = some req) : s.st ≠ .idle := by
  intro hs
  simp [State.request?, hs] at h

theorem finish_of_next {st : Seq} (hs : s.st = st) (hnext : st.next ≠ .idle) : s.finish = fun _ t => advance t := by
  subst hs
  exact finish_of_not_last (fun h => hnext (by rw [h, Seq.next])) (fun h => hnext (by rw [h, Seq.next]))

/-- A step that calls the transport issues the request of its sequencer state (R81), and then does the rest. -/
theorem step_call (hf : s.fault = []) (hreq : s.request? = some req) (hcall : req.isCall = true) :
    step s = .next (issue req s.finish s) := by
  cases hs : s.st <;> simp only [State.request?, hs, Option.some.injEq, reduceCtorEq] at hreq <;> subst hreq
  case wSettle => cases hcall
  case wEwds => rw [finish_of_wEwds hs]; exact step_wEwds hf hs
  case rData => rw [finish_of_rData hs]; exact step_rData hf hs
  all_goals rw [finish_of_next hs (by decide)]
  case wEwen => exact step_wEwen hf hs
  case wOp => exact step_wOp hf hs
  case wAddr => exact step_wAddr hf hs
  case wData => exact step_wData hf hs
  case wStrbOn => exact step_wStrbOn hf hs
  case wStrbOff => exact step_wStrbOff hf hs
  case rOp => exact step_rOp hf hs
  case rAddr => exact step_rAddr hf hs
  case rDummy => exact step_rDummy hf hs

end

/-! ## Everything a step leads to -/

/-- What a step of `s` can lead to: the same state (a faulted or waiting block); F_ADDR_RANGE or acceptance of the next
command (R111); the end of the settle delay (R121); F_CS_FRAME (R106, R107); or the request of the sequencer state,
issued and answered, with the rest of the step after it (R88). -/
inductive StepsTo (s : State) : State → Prop where
  | stays : StepsTo s s
  | refuses (hf : s.fault = []) (hs : s.st = .idle) (op : HostOp) (addr : BitVec 16) (rest : List (BitVec 33)) :
      StepsTo s (raiseFault (.addrRange addr) { s with cmds := rest, opQ := op })
  | accepts (hf : s.fault = []) (hs : s.st = .idle) (op : HostOp) (a : BitVec 8)
      (ha : a.toNat < 2 ^ s.cfg.profile.addrBits) (data : Word) (rest : List (BitVec 33)) :
      StepsTo s { s with
        cmds := rest
        opQ := op
        addrQ := a
        dataQ := if op = .writeWord then data else s.dataQ
        firstFail := none
        st := op.firstState
        accepted := s.accepted + 1 }
  | settles (hf : s.fault = []) (hs : s.st = .wSettle) :
      StepsTo s (advance { s with trace := s.trace ++ [⟨.delay s.cfg.tSettle, .settled⟩] })
  | misframes (hf : s.fault = []) (req : Request) (hreq : s.request? = some req) (hc : (csCheck req s.cs).isSome) :
      StepsTo s (raiseFault (.csFrame req s.cs) s)
  | answers (hf : s.fault = []) (req : Request) (hreq : s.request? = some req) (hc : csCheck req s.cs = none)
      (hcall : req.isCall = true) (ans : TxAnswer) (ha : s.answer? = some ans) :
      StepsTo s (s.finish ans (issueAnswered req ans s))

theorem stepsTo_accept {s : State} (hf : s.fault = []) (hs : s.st = .idle) (op : HostOp) (addr : BitVec 16)
    (data : Word) (rest : List (BitVec 33)) : StepsTo s (accept op addr data { s with cmds := rest }) := by
  obtain ⟨-, -, h⟩ | ⟨a, -, ha, h⟩ := accept_cases op addr data { s with cmds := rest } <;> rw [h]
  · exact .refuses hf hs op addr rest
  · exact .accepts hf hs op a ha data rest

theorem stepsTo_settleDelay {s : State} (hf : s.fault = []) (hs : s.st = .wSettle) : StepsTo s (settleDelay s) := by
  unfold settleDelay
  split
  · exact .settles hf hs
  · exact .stays

theorem stepsTo_issue {s : State} {req : Request} (hf : s.fault = []) (hreq : s.request? = some req)
    (hcall : req.isCall = true) : StepsTo s (issue req s.finish s) := by
  obtain ⟨hc, h⟩ | ⟨-, -, h⟩ | ⟨hc, ans, ha, h⟩ := issue_cases req s.finish s <;> rw [h]
  · exact .misframes hf req hreq hc
  · exact .stays
  · exact .answers hf req hreq hc hcall ans ha

/-- Every state has a next one, of this form. -/
theorem exists_step (s : State) : ∃ t, step s = .next t ∧ StepsTo s t := by
  by_cases hf : s.fault = []
  · by_cases hi : s.st = .idle
    · cases hc : s.cmds with
      | nil => exact ⟨s, step_await hf hi hc, .stays⟩
      | cons r rest => exact ⟨_, step_present hf hi hc, stepsTo_accept hf hi _ _ _ rest⟩
    by_cases hw : s.st = .wSettle
    · exact ⟨_, step_wSettle hf hw, stepsTo_settleDelay hf hw⟩
    obtain ⟨req, hreq, hcall⟩ := State.exists_request hi hw
    exact ⟨_, step_call hf hreq hcall, stepsTo_issue hf hreq hcall⟩
  · exact ⟨s, step_faulted ((faulted_iff s).mpr hf), .stays⟩

/-- The inversion of a step. -/
theorem stepsTo_of_step {s t : State} (h : step s = .next t) : StepsTo s t := by
  obtain ⟨u, hu, hsteps⟩ := exists_step s
  exact Host.Outcome.next.inj (hu.symm.trans h) ▸ hsteps

end Sys2Proof.Machine
end

section
/-! Host commands (41_sequencer.md R111 to R114): acceptance at the addresses the policy takes, the refusal of the
others, and what neither changes. -/

namespace Sys2Proof.Machine

open Sys2Proof.Statements

/-! ## The address policy (R113) -/

theorem latched_lt (s : State) (addr : BitVec 16) : latched s addr < 2 ^ s.cfg.profile.addrBits :=
  Nat.mod_lt _ (Nat.two_pow_pos _)

theorem latched_toNat (s : State) (addr : BitVec 16) : (BitVec.ofNat 8 (latched s addr)).toNat = latched s addr :=
  Nat.mod_eq_of_lt ((latched_lt s addr).trans_le (Nat.pow_le_pow_right (by decide) s.cfg.profile.addrBits_le_eight))

theorem latched_of_lt {s : State} {addr : BitVec 16} (h : addr.toNat < 2 ^ s.cfg.profile.addrBits) :
    latched s addr = addr.toNat := Nat.mod_eq_of_lt h

/-- An address the policy takes is taken modulo `2^A`, which in range is the address itself. -/
theorem addrPolicy_of_accepts {s : State} {addr : BitVec 16} (h : Accepts s addr) :
    addrPolicy s.cfg addr = .ok (BitVec.ofNat 8 (latched s addr)) := by
  by_cases hlt : addr.toNat < 2 ^ s.cfg.profile.addrBits
  · rw [addrPolicy, if_pos hlt, latched_of_lt hlt]
    rfl
  · simp only [addrPolicy, if_neg hlt, h.resolve_left hlt]
    rfl

theorem addrPolicy_of_refuse {s : State} {addr : BitVec 16} (h : 2 ^ s.cfg.profile.addrBits ≤ addr.toNat)
    (hp : s.cfg.addrPolicy = .refuse) : addrPolicy s.cfg addr = .error (.addrRange addr) := by
  simp only [addrPolicy, if_neg (Nat.not_lt.mpr h), hp]

/-- The policy does not take an address out of range under REFUSE, and takes every other. -/
theorem not_accepts_iff {s : State} {addr : BitVec 16} :
    ¬ Accepts s addr ↔ 2 ^ s.cfg.profile.addrBits ≤ addr.toNat ∧ s.cfg.addrPolicy = .refuse := by
  cases hp : s.cfg.addrPolicy <;> simp [Accepts, hp]

/-! ## Acceptance (R111, R114) -/

/-- The state in which a transaction begins, its command latched (R111). -/
def State.latching (op : HostOp) (addr : BitVec 16) (data : Word) (s : State) : State :=
  { s with
    opQ := op
    addrQ := BitVec.ofNat 8 (latched s addr)
    dataQ := if op = .writeWord then data else s.dataQ
    firstFail := none
    st := op.firstState
    accepted := s.accepted + 1 }

theorem accept_of_accepts {s : State} {addr : BitVec 16} (h : Accepts s addr) (op : HostOp) (data : Word) :
    accept op addr data s = s.latching op addr data := by
  rw [accept, addrPolicy_of_accepts h]
  rfl

theorem accept_of_refuse {s : State} {addr : BitVec 16} (h : 2 ^ s.cfg.profile.addrBits ≤ addr.toNat)
    (hp : s.cfg.addrPolicy = .refuse) (op : HostOp) (data : Word) :
    accept op addr data s = raiseFault (.addrRange addr) { s with opQ := op } := by
  rw [accept, addrPolicy_of_refuse h hp]

theorem present_of_ready {s : State} (hs : s.st = .idle) (hf : s.fault = []) (op : HostOp) (addr : BitVec 16)
    (data : Word) : present op addr data s = accept op addr data s := if_pos ((cmdReady_iff s).mpr ⟨hs, hf⟩)

theorem present_of_not_ready {s : State} (h : s.cmdReady = false) (op : HostOp) (addr : BitVec 16) (data : Word) :
    present op addr data s = s := if_neg (by simp [h])

/-- A host command is presented to the block, and answers a next state. -/
theorem exec_hostCommand {i : Instr} (h : i.profile? = none) :
    (∃ addr data, i = .writeWord addr data ∧ ∀ s, exec i s = .next (present .writeWord addr data s)) ∨
    ∃ addr, i = .readWord addr ∧ ∀ s, exec i s = .next (present .readWord addr 0 s) := by
  cases i <;> simp only [Instr.profile?, reduceCtorEq] at h
  case writeWord addr data => exact .inl ⟨addr, data, rfl, fun _ => rfl⟩
  case readWord addr => exact .inr ⟨addr, rfl, fun _ => rfl⟩

/-- Settles O17: in IDLE both commands are accepted, at the latched address, and READ_WORD keeps `data_q`; a busy block
holds them. -/
theorem hostCommandsAreAccepted : Obligations.HostCommandsAreAccepted := by
  refine fun s addr data => ⟨fun hs hf ha => ⟨?_, ?_⟩, fun hbusy t h => ?_⟩
  · exact congrArg Host.Outcome.next ((present_of_ready hs hf ..).trans (accept_of_accepts ha ..))
  · exact congrArg Host.Outcome.next ((present_of_ready hs hf ..).trans (accept_of_accepts ha ..))
  · have hready : s.cmdReady = false := by simp [State.cmdReady, State.busy, hbusy]
    have held (op : HostOp) (d : Word) : present op addr d s = s := present_of_not_ready hready op addr d
    obtain h | h := h <;> obtain rfl := Host.Outcome.next.inj h <;> rw [held] <;> exact ⟨rfl, rfl, rfl, rfl, rfl⟩

/-- Settles O19: under REFUSE, `op_q` and the fault are all that acceptance writes. -/
theorem outOfRangeAddressFaults : Obligations.OutOfRangeAddressFaults := by
  intro s addr data hs hf hge hp
  have refused (op : HostOp) (d : Word) :
      present op addr d s = { s with opQ := op, fault := [.addrRange addr] } := by
    rw [present_of_ready hs hf, accept_of_refuse hge hp, raiseFault_of_noFault (s := { s with opQ := op }) hf]
  exact ⟨congrArg Host.Outcome.next (refused _ _), congrArg Host.Outcome.next (refused _ _)⟩

/-- Settles O18: the address is in range, or out of range under one of the two policies. -/
theorem addressPolicyIsApplied : Obligations.AddressPolicyIsApplied := by
  intro s addr data i hs hf hi
  obtain ⟨op, d, hexec⟩ : ∃ op d, exec i s = .next (accept op addr d s) := by
    obtain rfl | rfl := hi
    · exact ⟨_, _, congrArg Host.Outcome.next (present_of_ready hs hf .writeWord addr data)⟩
    · exact ⟨_, _, congrArg Host.Outcome.next (present_of_ready hs hf .readWord addr 0)⟩
  have hbusy : op.firstState ≠ .idle := by cases op <;> decide
  refine ⟨_, hexec, ?_⟩
  by_cases hacc : Accepts s addr
  · rw [accept_of_accepts hacc]
    refine ⟨rfl, rfl, fun hlt => ⟨?_, hf, hbusy⟩, fun _ _ => ⟨latched_toNat s addr, hf, hbusy⟩, fun hge hp => ?_⟩
    · exact (latched_toNat s addr).trans (latched_of_lt hlt)
    · exact absurd hacc (not_accepts_iff.mpr ⟨hge, hp⟩)
  · obtain ⟨hge, hp⟩ := not_accepts_iff.mp hacc
    rw [accept_of_refuse hge hp, raiseFault_of_noFault (s := { s with opQ := op }) hf]
    exact ⟨rfl, rfl, fun hlt => absurd hlt (Nat.not_lt.mpr hge), fun _ htr => absurd (hp.symm.trans htr) (by decide),
      fun _ _ => ⟨rfl, hs, rfl⟩⟩

/-- What a presented command can do: nothing, while the block is not ready; raise F_ADDR_RANGE; or be accepted. -/
theorem present_cases (op : HostOp) (addr : BitVec 16) (data : Word) (s : State) :
    present op addr data s = s ∨ present op addr data s = raiseFault (.addrRange addr) { s with opQ := op } ∨
      present op addr data s = s.latching op addr data := by
  cases hready : s.cmdReady with
  | false => exact .inl (present_of_not_ready hready ..)
  | true =>
    obtain ⟨hs, hf⟩ := (cmdReady_iff s).mp hready
    rw [present_of_ready hs hf]
    by_cases hacc : Accepts s addr
    · exact .inr (.inr (accept_of_accepts hacc op data))
    · obtain ⟨hge, hp⟩ := not_accepts_iff.mp hacc
      exact .inr (.inl (accept_of_refuse hge hp op data))

/-- Settles O21: a command held, refused or accepted writes `op_q`, the fault set or the registers of acceptance. -/
theorem hostCommandsFrame : Obligations.HostCommandsFrame := by
  intro s t i hi h
  obtain ⟨op, addr, data, ht, hread⟩ : ∃ op addr data, present op addr data s = t ∧
      ∀ a, i = .readWord a → op = .readWord := by
    obtain ⟨addr, data, rfl, hexec⟩ | ⟨addr, rfl, hexec⟩ := exec_hostCommand hi <;>
      obtain rfl := Host.Outcome.next.inj ((hexec s).symm.trans h)
    · exact ⟨_, _, _, rfl, fun a ha => by cases ha⟩
    · exact ⟨_, _, _, rfl, fun _ _ => rfl⟩
  subst ht
  obtain hp | hp | hp := present_cases op addr data s <;> rw [hp]
  · exact ⟨rfl, rfl, rfl, rfl, rfl, rfl, rfl, rfl, rfl, rfl, rfl, rfl, rfl, rfl, fun _ => rfl, fun _ _ => rfl,
      fun hne => absurd rfl hne⟩
  · exact ⟨rfl, rfl, rfl, rfl, rfl, rfl, rfl, rfl, rfl, rfl, rfl, rfl, rfl, rfl, fun _ => rfl, fun _ _ => rfl,
      fun _ => ⟨rfl, rfl, rfl, rfl⟩⟩
  · refine ⟨rfl, rfl, rfl, rfl, rfl, rfl, rfl, rfl, rfl, rfl, rfl, rfl, rfl, rfl, fun _ => rfl, fun a ha => ?_,
      fun hne => absurd rfl hne⟩
    obtain rfl := hread a ha
    rfl

/-- In IDLE the step of a record whose address the policy takes is its acceptance. -/
theorem step_accepts {s : State} (hs : s.st = .idle) (hf : s.fault = []) {op : BitVec 1} {addr : BitVec 16}
    {data : Word} {rest : List (BitVec 33)} (hc : s.cmds = encodeHost op addr data :: rest) (ha : Accepts s addr) :
    step s = .next (State.latching (if op = 0 then .writeWord else .readWord) addr (if op = 0 then data else 0)
      { s with cmds := rest }) := by
  have hacc : Accepts { s with cmds := rest } addr := ha
  rw [step_present hf hs hc, accept_of_accepts (by rwa [encodeHost_addr])]
  by_cases hop : op = 0 <;> simp [hop]

end Sys2Proof.Machine
end

section
/-! What every step does and keeps (10_state.md, 41_sequencer.md): the handshake and the latched command, the next-state
table, the strobe frame, the waits, and the run that never stops. -/

namespace Sys2Proof.Machine

open Sys2Proof.Statements

/-! ## The instruction a step runs (R22, R81) -/

/-- Settles O36: IDLE's instruction is the decoded record, and the record is taken off the port. -/
theorem stepRunsThePresentedCommand : Obligations.StepRunsThePresentedCommand := by
  intro s r rest i hf hs hc hdecode
  obtain rfl : decodeHost r = i := Except.ok.inj hdecode
  simp [step, fetch, State.taken, faulted_false hf, hs, hc]

/-- Settles O37: the bits of each frame decode to the row that the sequencer's state selects. -/
theorem stepRunsTheFramesCommandWord : Obligations.StepRunsTheFramesCommandWord := by
  intro s i hf _
  rw [decodeFrame_encodeEwen, decodeFrame_encodeEwds, decodeFrame_encodeWrite, decodeFrame_encodeRead]
  refine ⟨fun hs h => ?_, fun hs h => ?_, fun hs h => ?_, fun hs h => ?_⟩ <;> obtain rfl := Except.ok.inj h
  · simp [step, fetch, State.taken, faulted_false hf, hs]
  · simp [step, fetch, State.taken, faulted_false hf, hs]
  · obtain hs | hs | hs := hs <;> simp [step, fetch, State.taken, faulted_false hf, hs]
  · obtain hs | hs | hs | hs := hs <;> simp [step, fetch, State.taken, faulted_false hf, hs]

/-! ## The trace and the latched command (R16, R30, R42) -/

/-- Settles O48: a step adds no line to the trace, or one. -/
theorem atMostOneRequestAStep : Obligations.AtMostOneRequestAStep := by
  intro s t h
  obtain htrace | ⟨req, ans, -, htrace⟩ := step_trace h
  · exact ⟨[], by simpa using htrace, Nat.zero_le 1⟩
  · exact ⟨_, htrace, Nat.le_refl 1⟩

/-- Settles O47: only acceptance writes the latched command, and acceptance is a step of IDLE. -/
theorem latchedCommandHolds : Obligations.LatchedCommandHolds := by
  intro s t hbusy h
  cases stepsTo_of_step h with
  | refuses hf hs => exact absurd hs hbusy
  | accepts hf hs => exact absurd hs hbusy
  | stays | settles | misframes => exact ⟨rfl, rfl, rfl, rfl, rfl⟩
  | answers => simp

/-! ## The command handshake (R22, R37) -/

/-- A step makes a block that is not ready ready only by delivering a response, and takes no command. -/
theorem step_of_not_ready {s t : State} (hready : s.cmdReady = false) (h : step s = .next t) :
    t.cmds = s.cmds ∧ t.accepted = s.accepted ∧
      (t.cmdReady = true → t.responses.length = s.responses.length + 1) := by
  have not_ready (hf : s.fault = []) : s.st ≠ .idle := fun hs =>
    Bool.false_ne_true (hready.symm.trans ((cmdReady_iff s).mpr ⟨hs, hf⟩))
  cases stepsTo_of_step h with
  | stays => exact ⟨rfl, rfl, fun ht => absurd ht (by simp [hready])⟩
  | refuses hf hs => exact absurd hs (not_ready hf)
  | accepts hf hs => exact absurd hs (not_ready hf)
  | settles hf hs => exact ⟨rfl, rfl, fun ht => absurd ((cmdReady_iff _).mp ht).1 (by simp [hs, Seq.next])⟩
  | misframes => exact ⟨rfl, rfl, fun ht => absurd ((cmdReady_iff _).mp ht).2 (addFault_ne_nil _ _)⟩
  | answers hf req hreq hc hcall ans ha =>
    refine ⟨by simp, by simp, fun ht => ?_⟩
    have hidle : s.st.next = .idle := by simpa using ((cmdReady_iff _).mp ht).1
    rw [finish_responses_length (not_ready hf), if_pos hidle, issueAnswered_responses]

/-- Settles O20: the host's command is held in every state that is not ready, and a faulted block stays so. -/
theorem commandsHoldWhileNotReady : Obligations.CommandsHoldWhileNotReady := by
  refine ⟨cmdReady_iff, fun s addr data hready => ⟨?_, ?_, fun t => step_of_not_ready hready⟩, fun n s t hf hrun => ?_⟩
  · exact congrArg Host.Outcome.next (present_of_not_ready hready ..)
  · exact congrArg Host.Outcome.next (present_of_not_ready hready ..)
  · obtain rfl : s = t := Host.Outcome.next.inj ((run_of_fault hf n).symm.trans hrun)
    exact cmdReady_of_fault hf

/-! ## Runs that go on, and runs that wait (R16, R141, R169) -/

/-- The surroundings that no step changes. -/
theorem step_surroundings {s t : State} (h : step s = .next t) :
    (t.transport, t.settleEnds, t.deviceProfile, t.writeCycle) =
      (s.transport, s.settleEnds, s.deviceProfile, s.writeCycle) := by
  cases stepsTo_of_step h with
  | stays | refuses | accepts | settles | misframes => rfl
  | answers => simp

theorem run_succ {M : Host.Core} {s u : M.State} (h : M.step s = .next u) (n : Nat) : M.run (n + 1) s = M.run n u := by
  rw [Host.Core.run, h]

theorem exists_run (n : Nat) (s : State) : ∃ t, Host.Core.run Sys2Proof.core n s = .next t := by
  induction n generalizing s with
  | zero => exact ⟨s, rfl⟩
  | succ n ih =>
    obtain ⟨u, hu, -⟩ := exists_step s
    obtain ⟨t, ht⟩ := ih u
    exact ⟨t, (run_succ (M := Sys2Proof.core) hu n).trans ht⟩

/-- Settles O42: every state has a next one, and no step changes the surroundings. -/
theorem everyRunGoesOn : Obligations.EveryRunGoesOn := by
  intro n s
  obtain ⟨t, ht⟩ := exists_run n s
  have hkeeps := run_keeps (M := Sys2Proof.core)
    (f := fun s : State => (s.transport, s.settleEnds, s.deviceProfile, s.writeCycle))
    (fun _ _ => step_surroundings) n ht
  simp only [Prod.mk.injEq] at hkeeps
  exact ⟨t, ht, hkeeps⟩

/-- Settles O43: a faulted block steps to itself. -/
theorem faultedBlockIsQuiescent : Obligations.FaultedBlockIsQuiescent := fun n _ hf =>
  ⟨run_of_fault hf n, complete_of_fault hf, cmdReady_of_fault hf⟩

theorem complete_of_busy {s : State} (h : s.st ≠ .idle) : s.complete = false := by
  simp [State.complete, State.busy, h]

theorem settleDelay_of_not_settleEnds {s : State} (h : s.settleEnds = false) : settleDelay s = s := by
  simp [settleDelay, h]

/-- A framed block whose call is not answered stays as it is. -/
theorem step_unanswered {s : State} (hcs : s.csFramed) (hi : s.st ≠ .idle) (hw : s.st ≠ .wSettle)
    (ha : s.answer? = none) : step s = .next s := by
  by_cases hf : s.fault = []
  · obtain ⟨req, hreq, hcall⟩ := State.exists_request hi hw
    rw [step_call hf hreq hcall, issue_waits (csCheck_of_csFramed hreq hcs) ha]
  · exact step_faulted ((faulted_iff s).mpr hf)

theorem step_unsettled {s : State} (hs : s.st = .wSettle) (he : s.settleEnds = false) : step s = .next s := by
  by_cases hf : s.fault = []
  · rw [step_wSettle hf hs, settleDelay_of_not_settleEnds he]
  · exact step_faulted ((faulted_iff s).mpr hf)

/-- Settles O44: in both waits the block steps to itself. -/
theorem unansweredBlockWaitsForEver : Obligations.UnansweredBlockWaitsForEver := by
  intro n s hcs hi hwait
  have hstep : step s = .next s := by
    obtain ⟨hs, he⟩ | ⟨hw, htx, hsilent⟩ := hwait
    · exact step_unsettled hs he
    · exact step_unanswered hcs hi hw (by simp [State.answer?, htx, hsilent])
  exact ⟨run_of_step_self (M := Sys2Proof.core) hstep n, complete_of_busy hi⟩

/-! ## The framing contract (R106, R107, R141) -/

/-- Settles O40: the step issues its request through the check, which raises the fault before anything is written. -/
theorem csViolationFaultsUnissued : Obligations.CsViolationFaultsUnissued := by
  rintro s req hf hreq hcall ⟨v, hv⟩
  rw [step_call hf hreq hcall, issue_of_violation hf _ rfl hv]

/-! ## The next-state table (R81, R134) -/

/-- In a framed block that is answered, and whose delay ends, the request of the sequencer state is issued, and the
next state entered. -/
theorem step_progress_of_request {s : State} {req : Request} (hf : s.fault = []) (hcs : s.csFramed)
    (ha : s.answer?.isSome) (he : s.settleEnds = true) (hreq : s.request? = some req) :
    ∃ t, step s = .next t ∧ t.progress = s.progress.issued req := by
  by_cases hw : s.st = .wSettle
  · obtain rfl := Option.some.inj ((request?_eq_some_of_wSettle hw).symm.trans hreq)
    refine ⟨_, step_wSettle hf hw, ?_⟩
    rw [settleDelay_of_settleEnds he]
    simp [State.progress, Progress.issued, csAfter, Request.acs, Request.dcs, hw, Seq.next]
  · obtain ⟨r, hr, hcall⟩ := State.exists_request (not_idle_of_request? hreq) hw
    obtain rfl := Option.some.inj (hreq.symm.trans hr)
    obtain ⟨ans, hans⟩ := Option.isSome_iff_exists.mp ha
    rw [← called_of_csCheck (csCheck_of_csFramed hreq hcs)]
    exact step_progress_of_call hf hreq hcall hans

/-- Settles O39: the table lists the request of each busy state and the state after it; a record is accepted. -/
theorem nextStateTable : Obligations.NextStateTable := by
  intro s hf hcs ha he
  refine ⟨fun st next req hrow hs => ?_, fun op addr data rest hs hc hacc => ?_⟩
  · have hreq : s.request? = some req ∧ s.st.next = next := by
      cases st <;> simp at hrow
      all_goals
        obtain ⟨rfl, rfl⟩ := hrow
        exact ⟨by rw [State.request?, hs] <;> rfl, by rw [hs, Seq.next]⟩
    obtain ⟨hreq, rfl⟩ := hreq
    obtain ⟨t, ht, hprogress⟩ := step_progress_of_request hf hcs ha he hreq
    obtain ⟨hst, -, hfault, hrequests, hresponses, -⟩ := Progress.mk.inj hprogress
    refine ⟨t, ht, hst, hfault.trans hf, hrequests, hresponses.trans ?_⟩
    by_cases hidle : s.st.next = .idle <;> simp [State.progress, hidle]
  · refine ⟨_, step_accepts hs hf hc hacc, ?_, latched_toNat s addr, hf, rfl, rfl⟩
    by_cases hop : op = 0
    · rw [if_pos hop, if_pos hop, if_pos hop]
      rfl
    · rw [if_neg hop, if_neg hop, if_neg hop]
      rfl

/-! ## The strobe frame (R96, R97, R121) -/

/-- The step of a framed, answered call that does not end the transaction; the store is the mock's, if it is there. -/
theorem step_answered {s : State} {req : Request} {ans : TxAnswer} (hf : s.fault = []) (hreq : s.request? = some req)
    (hcall : req.isCall = true) (hc : csCheck req s.cs = none) (ha : s.answer? = some ans) (hnext : s.st.next ≠ .idle) :
    step s = .next { afterIssue s ans ⟨req, replyTo req ans s⟩ with
      st := s.st.next
      cs := csAfter req s.cs
      mem := if s.transport = .loopback then deviceStore s.cfg.profile (s.trace ++ [⟨req, replyTo req ans s⟩]) req s.mem
        else s.mem } := by
  have hissued := issueAnswered_with_mem req ans s (issueAnswered req ans s).mem
  rw [step_call hf hreq hcall, issue_answered hc ha, finish_of_next rfl hnext]
  exact congrArg (Host.Outcome.next ∘ advance) hissued

/-- Settles O38: the frame's two requests and the delay between them are the steps of their states. -/
theorem strobeFrameSteps : Obligations.StrobeFrameSteps := by
  intro s hf
  refine ⟨⟨rfl, rfl⟩, fun ans hs hcs ha => ?_, fun hs hcs => ?_, fun hs he => ?_, fun hs he => ?_,
    fun ans line hs hcs ha hline => ?_, fun hs hcs => ?_⟩
  · have hreq : s.request? = some reqStrobeOn := by rw [State.request?, hs]
    have hstore : StoresNothing s.cfg.profile reqStrobeOn := storesNothing_of_open
    rw [step_answered hf hreq rfl (by rw [hcs]; rfl) ha (by rw [hs]; decide), hs, hstore, ite_self]
    rfl
  · rw [step_wStrbOn hf hs]
    exact congrArg Host.Outcome.next (issue_of_violation hf _ hcs rfl)
  · rw [step_wSettle hf hs, settleDelay_of_settleEnds he]
    simp [advance, hs, Seq.next]
  · exact ⟨s, step_unsettled hs he, hs, complete_of_busy (by rw [hs]; decide), rfl, rfl, rfl, rfl⟩
  · have hreq : s.request? = some reqStrobeOff := by rw [State.request?, hs]
    subst hline
    rw [step_answered hf hreq rfl (by rw [hcs]; rfl) ha (by rw [hs]; decide), hs]
    rfl
  · rw [step_wStrbOff hf hs]
    exact congrArg Host.Outcome.next (issue_of_violation hf _ hcs rfl)

end Sys2Proof.Machine
end

section
/-! The block invariant (40_codec.md R104, R110; 10_state.md R23, R30, R34; 20_memory.md R45): every step keeps it, and
so do a reset and a new session. And what a reset does (70_reset_and_hazards.md R153 to R157). -/

namespace Sys2Proof.Machine

/-! ## The store stays canonical and inside the word space (R45) -/

/-- The two parts of the invariant that speak of the store. -/
def StoreInSpace (p : Profile) (m : List Host.Cell) : Prop :=
  Memory.wf m = true ∧ ∀ c ∈ m, c.1 < 2 * 2 ^ p.addrBits

theorem storeInSpace_nil (p : Profile) : StoreInSpace p [] := ⟨rfl, fun _ h => nomatch h⟩

section
variable {p : Profile} {m : List Host.Cell} (h : StoreInSpace p m)
include h

theorem storeInSpace_memWriteWord {a : Nat} (ha : a < 2 ^ p.addrBits) (bytes : BytePair) :
    StoreInSpace p (memWriteWord m a bytes) := by
  obtain ⟨hwf, hspace⟩ := h
  refine ⟨memWriteWord_wf hwf a bytes, fun c hc => ?_⟩
  obtain rfl | hc := mem_memWrite hc
  · show 2 * a + 1 < _; omega
  obtain rfl | hc := mem_memWrite hc
  · show 2 * a < _; omega
  · exact hspace c hc

/-- The mock stores under the address of a frame it has decoded. -/
theorem storeInSpace_deviceStore (trace : List TraceEntry) (req : Request) :
    StoreInSpace p (deviceStore p trace req m) := by
  cases htarget : deviceTarget p trace req with
  | none => rwa [deviceStore, htarget]
  | some target =>
    obtain ⟨a, d⟩ := target
    rw [deviceStore, htarget]
    unfold deviceTarget at htarget
    split at htarget
    · split at htarget
      · next i hi => exact storeInSpace_memWriteWord h (writeArgs?_lt_of_decodeFrame hi htarget) _
      · cases htarget
    all_goals cases htarget

end

theorem storeInSpace_settleWrite {p : Profile} {s : State} (h : StoreInSpace p s.mem)
    (ha : s.addrQ.toNat < 2 ^ p.addrBits) : StoreInSpace p (settleWrite s).mem := by
  rw [settleWrite_mem]
  split
  · split
    · exact storeInSpace_memWriteWord h ha _
    · exact storeInSpace_nil p
  · exact h

theorem storeInSpace_issueAnswered {s : State} (h : StoreInSpace s.cfg.profile s.mem) (req : Request)
    (ans : TxAnswer) : StoreInSpace s.cfg.profile (issueAnswered req ans s).mem := by
  rw [issueAnswered_mem]
  split
  · exact storeInSpace_deviceStore h _ _
  · exact h

theorem storeInSpace_finish {s t : State} (h : StoreInSpace s.cfg.profile t.mem)
    (ha : t.addrQ.toNat < 2 ^ s.cfg.profile.addrBits) (ans : TxAnswer) :
    StoreInSpace s.cfg.profile (s.finish ans t).mem := by
  rw [finish_mem]
  split
  · exact storeInSpace_settleWrite h ha
  · exact h

/-! ## The framing contract and the sequence (R104, R110, R134) -/

/-- A request of R81 leaves the CS view that the next sequencer state begins with. -/
theorem csAfter_request {s : State} {req : Request} (hreq : s.request? = some req) (hcs : s.csFramed) :
    csAfter req s.cs = s.st.next.csOnEntry := by
  rw [hcs]
  cases hs : s.st <;> simp only [State.request?, hs, Option.some.injEq, reduceCtorEq] at hreq <;> subst hreq <;> rfl

/-- A sequence ends, or goes on with the operation it began with. -/
theorem op?_next (st : Seq) : st.next.op? = none ∨ st.next.op? = st.op? := by
  cases st <;> decide

theorem opMatches_next {st : Seq} {op : HostOp} (h : st.op? = none ∨ st.op? = some op) :
    st.next.op? = none ∨ st.next.op? = some op := by
  obtain hn | hn := op?_next st
  · exact .inl hn
  · exact hn ▸ h

/-! ## Every step keeps the invariant -/

section
variable {s : State} (h : s.Inv)
include h

theorem inv_refused (op : HostOp) (addr : BitVec 16) (rest : List (BitVec 33)) (hs : s.st = .idle) (hf : s.fault = []) :
    (raiseFault (.addrRange addr) { s with cmds := rest, opQ := op }).Inv where
  csFramed := h.csFramed
  addrInRange := h.addrInRange
  opMatches := .inl (by rw [raiseFault_st, hs, Seq.op?])
  failureIsFailure := h.failureIsFailure
  answeredAll := h.answeredAll
  memCanonical := h.memCanonical
  memInSpace := h.memInSpace
  noCsFault r c := by simp [hf, addFault_nil]

theorem inv_accepted (hs : s.st = .idle) (op : HostOp) (a : BitVec 8) (ha : a.toNat < 2 ^ s.cfg.profile.addrBits)
    (d : Word) (rest : List (BitVec 33)) :
    ({ s with cmds := rest, opQ := op, addrQ := a, dataQ := d, firstFail := none, st := op.firstState,
              accepted := s.accepted + 1 } : State).Inv where
  csFramed := by
    have hcs : s.cs = .deasserted := by rw [h.csFramed, hs, Seq.csOnEntry]
    cases op <;> exact hcs
  addrInRange := ha
  opMatches := .inr (by cases op <;> rfl)
  failureIsFailure := by simp [State.failureIsFailure]
  answeredAll := by
    have hbusy : op.firstState ≠ .idle := by cases op <;> decide
    have hall := h.answeredAll
    simp only [State.answeredAll, hs, if_pos] at hall
    simp [State.answeredAll, hbusy, ← hall]
  memCanonical := h.memCanonical
  memInSpace := h.memInSpace
  noCsFault := h.noCsFault

theorem inv_settled (hs : s.st = .wSettle) (lines : List TraceEntry) :
    (advance { s with trace := lines }).Inv where
  csFramed := by
    have hcs : s.cs = .asserted := by rw [h.csFramed, hs, Seq.csOnEntry]
    simp [State.csFramed, hs, hcs, Seq.next, Seq.csOnEntry]
  addrInRange := h.addrInRange
  opMatches := opMatches_next h.opMatches
  failureIsFailure := h.failureIsFailure
  answeredAll := by
    have hall := h.answeredAll
    simpa [State.answeredAll, hs, Seq.next] using hall
  memCanonical := h.memCanonical
  memInSpace := h.memInSpace
  noCsFault := h.noCsFault

/-- The requests of R81 lead from each view of R110 to the next one, and the last one has a response. -/
theorem inv_answered {req : Request} (hreq : s.request? = some req) (ans : TxAnswer) :
    (s.finish ans (issueAnswered req ans s)).Inv := by
  have hstore := storeInSpace_finish (t := issueAnswered req ans s)
    (storeInSpace_issueAnswered ⟨h.memCanonical, h.memInSpace⟩ req ans) h.addrInRange ans
  obtain ⟨hwf, hspace⟩ := hstore
  have hi := not_idle_of_request? hreq
  exact {
    csFramed := by simpa [State.csFramed] using csAfter_request hreq h.csFramed
    addrInRange := by simpa [State.addrInRange] using h.addrInRange
    opMatches := by simpa [State.opMatches] using opMatches_next h.opMatches
    failureIsFailure := by simpa [State.failureIsFailure] using recordFailure_ne_success h.failureIsFailure ans.status
    answeredAll := by
      have hall := h.answeredAll
      rw [State.answeredAll, if_neg hi] at hall
      rw [State.answeredAll, finish_responses_length hi]
      by_cases hidle : s.st.next = .idle <;> simp [hidle, hall]
    memCanonical := hwf
    memInSpace := by simpa [State.memInSpace] using hspace
    noCsFault := by simpa [State.noCsFault] using h.noCsFault }

end

/-- Settles O50: each of the six things a step leads to has the invariant; F_CS_FRAME is not among them, since the view
on entry to each state passes the check of its request. -/
theorem everyStepKeepsTheInvariant : Obligations.EveryStepKeepsTheInvariant := by
  intro s t h hstep
  cases stepsTo_of_step hstep with
  | stays => exact h
  | refuses hf hs op addr rest => exact inv_refused h op addr rest hs hf
  | accepts hf hs op a ha data rest => exact inv_accepted h hs op a ha _ rest
  | settles hf hs => exact inv_settled h hs _
  | misframes hf req hreq hc => simp [csCheck_of_csFramed hreq h.csFramed] at hc
  | answers hf req hreq hc hcall ans ha => exact inv_answered h hreq ans

/-! ## Reset (R153) -/

/-- The pair of address and command width that a profile has (R6). -/
def legalPair (p : Profile) : DeviceProfile := ⟨p.addrBits, p.addrBits + 3⟩

theorem configure_legalPair (p : Profile) : (legalPair p).configure = some p := by cases p <;> rfl

/-- The check passes the three pairs and nothing else. -/
theorem exists_legalPair_of_wf {d : DeviceProfile} (h : d.wf = true) : ∃ p, d = legalPair p := by
  obtain ⟨a, c⟩ := d
  simp only [DeviceProfile.wf, Bool.and_eq_true, Bool.or_eq_true, beq_iff_eq] at h
  obtain ⟨(rfl | rfl) | rfl, rfl⟩ := h
  · exact ⟨.p6, rfl⟩
  · exact ⟨.p7, rfl⟩
  · exact ⟨.p8, rfl⟩

/-- Settles O12: what configures a session has passed the check, so it is one of the three pairs. -/
theorem onlyLegalProfilesConfigure : Obligations.OnlyLegalProfilesConfigure := by
  refine fun d p => ⟨fun h => ?_, ?_⟩
  · have hwf : d.wf = true := by
      by_contra hn
      simp [DeviceProfile.configure, hn] at h
    obtain ⟨q, rfl⟩ := exists_legalPair_of_wf hwf
    obtain rfl := Option.some.inj ((configure_legalPair q).symm.trans h)
    exact ⟨rfl, rfl⟩
  · obtain ⟨a, c⟩ := d
    rintro ⟨rfl, rfl⟩
    exact configure_legalPair p

theorem inv_resetWith (c : SessionConfig) : (State.resetWith c).Inv where
  csFramed := rfl
  addrInRange := Nat.two_pow_pos _
  opMatches := .inl rfl
  failureIsFailure := by simp [State.failureIsFailure]
  answeredAll := rfl
  memCanonical := rfl
  memInSpace _ hc := nomatch hc
  noCsFault _ _ hm := nomatch hm

/-- Settles O14: the registers the invariant reads hold values that meet it. -/
theorem resetMeetsTheInvariant : Obligations.ResetMeetsTheInvariant := ⟨inv_resetWith, inv_resetWith _⟩

/-- Settles O13: after reset no command is presented, so the step is the wait for one. -/
theorem resetWaitsInIdle : Obligations.ResetWaitsInIdle :=
  ⟨fun c => ⟨rfl, rfl, rfl, rfl, rfl, State.resetWith c, step_await rfl rfl rfl, rfl, rfl, rfl, rfl⟩, rfl⟩

/-! ## Sessions (R153, R156, R157) -/

theorem inTransaction_iff (s : State) : s.inTransaction = true ↔ s.st ≠ .idle ∧ s.fault = [] := by
  simp [State.inTransaction, State.busy, State.faulted, List.isEmpty_iff]

theorem abort_of_noFault {s : State} (hf : s.fault = []) : s.abort = { s with fault := [.aborted s.st], mem := [] } :=
  raiseFault_of_noFault (s := { s with mem := [] }) hf _

/-- In a transaction a new session, whatever its configuration, is an abort. -/
theorem newSession_of_busy (c : SessionConfig) {s : State} (hs : s.st ≠ .idle) (hf : s.fault = []) :
    s.newSession c = { s with fault := [.aborted s.st], mem := [] } := by
  rw [State.newSession_of_inTransaction c ((inTransaction_iff s).mpr ⟨hs, hf⟩), abort_of_noFault hf]

theorem not_inTransaction {s : State} (h : s.st = .idle ∨ s.fault ≠ []) : s.inTransaction = false := by
  rw [Bool.eq_false_iff, ne_eq, inTransaction_iff]
  rintro ⟨hs, hf⟩
  exact h.elim hs (· hf)

/-- Settles O15: F_ABORTED is the fault set of the reset block, which is still busy. -/
theorem resetWhileBusyAborts : Obligations.ResetWhileBusyAborts := by
  intro s hs hf
  have habort : s.hostReset = { s with fault := [.aborted s.st], mem := [] } := newSession_of_busy s.cfg hs hf
  have hfault : s.hostReset.fault ≠ [] := by simp [habort]
  exact ⟨habort, cmdReady_of_fault hfault, complete_of_fault hfault⟩

/-- A session that begins is ready, in its configuration, and keeps the store of a boundary between sessions of the
device's profile. -/
theorem newSession_begins (c : SessionConfig) {s : State} (h : s.st = .idle ∨ s.fault ≠ []) :
    (s.newSession c).cmdReady = true ∧ (s.newSession c).cfg = c ∧
      (s.st = .idle → c.profile = s.cfg.profile → c.profile = s.deviceProfile → (s.newSession c).mem = s.mem) ∧
      (s.st ≠ .idle ∨ c.profile ≠ s.cfg.profile ∨ c.profile ≠ s.deviceProfile → (s.newSession c).mem = []) := by
  have hn := not_inTransaction h
  refine ⟨(cmdReady_iff _).mpr ⟨State.newSession_st c hn, State.newSession_fault c hn⟩, State.newSession_cfg c hn,
    fun hs hc hd => ?_, fun hne => ?_⟩
  · rw [State.newSession_mem c hn, State.memFor, if_pos ⟨hs, hc, hd⟩]
  · rw [State.newSession_mem c hn, State.memFor, if_neg (by tauto)]

/-- Settles O16: the session begun is one of the configuration the block had. -/
theorem resetRecovers : Obligations.ResetRecovers := by
  intro s h
  have hn := not_inTransaction h
  obtain ⟨hready, hcfg, hkept, hforgotten⟩ := newSession_begins s.cfg h
  exact ⟨State.newSession_fault _ hn, State.newSession_st _ hn, State.newSession_cs _ hn,
    State.newSession_firstFail _ hn, hready, hcfg, fun hs hp => hkept hs rfl hp,
    fun hne => hforgotten (hne.imp_right .inr)⟩

theorem inv_aborted {s : State} (h : s.Inv) : ({ s with fault := [.aborted s.st], mem := [] } : State).Inv :=
  { h with
    memCanonical := rfl
    memInSpace := fun _ hc => nomatch hc
    noCsFault := by simp [State.noCsFault] }

/-- The store that goes on into a session was in the space of the same profile. -/
theorem storeInSpace_memFor {s : State} (h : s.Inv) (c : SessionConfig) : StoreInSpace c.profile (s.memFor c) := by
  unfold State.memFor
  split
  · next hkept =>
    obtain ⟨-, hprofile, -⟩ := hkept
    exact hprofile ▸ ⟨h.memCanonical, h.memInSpace⟩
  · exact storeInSpace_nil _

theorem inv_newSession {s : State} (h : s.Inv) (c : SessionConfig) : (s.newSession c).Inv := by
  by_cases hbusy : s.st ≠ .idle ∧ s.fault = []
  · obtain ⟨hst, hf⟩ := hbusy
    rw [newSession_of_busy c hst hf]
    exact inv_aborted h
  · have hn : s.inTransaction = false := by rwa [Bool.eq_false_iff, ne_eq, inTransaction_iff]
    obtain ⟨hwf, hspace⟩ := storeInSpace_memFor h c
    rw [State.newSession_of_not c hn]
    exact { inv_resetWith c with memCanonical := hwf, memInSpace := hspace }

/-- Settles O58: in a transaction the session is an abort, and otherwise a reset block with the store it keeps. -/
theorem sessionsKeepTheInvariant : Obligations.SessionsKeepTheInvariant := by
  refine fun s h => ⟨inv_newSession h s.cfg, fun c => ⟨inv_newSession h c, newSession_of_busy c, fun hb => ?_⟩⟩
  obtain ⟨hready, hcfg, hkept, hforgotten⟩ := newSession_begins c hb
  exact ⟨hready, hcfg, State.newSession_deviceProfile c s, hkept, hforgotten⟩

end Sys2Proof.Machine
end

section
/-! The devices behind the transport (20_memory.md R45 to R59; 95_test_vectors.md): their store, what a WRITE frame and
a completed WRITE_WORD leave in it, and the bytes a read is given. -/

namespace Sys2Proof.Machine

open Sys2Proof.Statements

/-! ## The store, by words -/

theorem memRead_memWriteWord (m : List Host.Cell) (a : Nat) (bytes : BytePair) (k : Nat) :
    memRead (memWriteWord m a bytes) k =
      if 2 * a + 1 = k then some bytes.b1 else if 2 * a = k then some bytes.b0 else memRead m k := by
  rw [memWriteWord, memRead_memWrite, memRead_memWrite]

theorem memRead_memWriteWord_of_ne (m : List Host.Cell) {a k : Nat} (h0 : k ≠ 2 * a) (h1 : k ≠ 2 * a + 1)
    (bytes : BytePair) : memRead (memWriteWord m a bytes) k = memRead m k := by
  rw [memRead_memWriteWord, if_neg h1.symm, if_neg h0.symm]

theorem memRead_memWriteWord_low (m : List Host.Cell) (a : Nat) (bytes : BytePair) :
    memRead (memWriteWord m a bytes) (2 * a) = some bytes.b0 := by
  rw [memRead_memWriteWord, if_neg (by omega), if_pos rfl]

theorem memRead_memWriteWord_high (m : List Host.Cell) (a : Nat) (bytes : BytePair) :
    memRead (memWriteWord m a bytes) (2 * a + 1) = some bytes.b1 := by
  rw [memRead_memWriteWord, if_pos rfl]

theorem memReadWord_memWriteWord (m : List Host.Cell) (a : Nat) (d : Word) :
    memReadWord (memWriteWord m a (wordSplit d)) a = some d := by
  rw [memReadWord, memRead_memWriteWord_low, memRead_memWriteWord_high]
  exact congrArg some (wordAssemble_wordSplit d)

/-- Settles O33: the two bytes of a word are its own, and a byte reads as it was last written. -/
theorem storedWordReadsBack : Obligations.StoredWordReadsBack := by
  intro m a k d
  split
  · next h => rw [h, memReadWord_memWriteWord]
  · next h =>
    rw [memReadWord, memRead_memWriteWord_of_ne m (by omega) (by omega),
      memRead_memWriteWord_of_ne m (by omega) (by omega)]
    rfl

/-- A word that reads as `d` holds the bytes of `d`. -/
theorem memRead_of_memReadWord {m : List Host.Cell} {a : Nat} {d : Word} (h : memReadWord m a = some d) :
    memRead m (2 * a) = some (lowByte d) ∧ memRead m (2 * a + 1) = some (highByte d) := by
  unfold memReadWord at h
  split at h
  · next b0 b1 h0 h1 =>
    obtain rfl := Option.some.inj h
    obtain ⟨hlow, hhigh⟩ := BytePair.mk.inj (wordSplit_wordAssemble ⟨b0, b1⟩)
    exact ⟨h0.trans (congrArg some hlow.symm), h1.trans (congrArg some hhigh.symm)⟩
  · cases h

/-! ## What the mock stores (log 7) -/

/-- The data request closes a WRITE frame that its opcode and address have opened. -/
theorem deviceTarget_reqData {p : Profile} {trace : List TraceEntry} {a : Nat} (ha : a < 2 ^ p.addrBits)
    (h : openFrame trace = [true, false, true] ++ msbBits a p.addrBits) (d : Word) (reply : Reply) :
    deviceTarget p (trace ++ [⟨reqData d, reply⟩]) (reqData d) = some (a, d) := by
  have hopen : openFrame (trace ++ [⟨reqData d, reply⟩]) = encodeWrite p a d := by
    rw [openFrame_append, ← writeFrame_wireBits ha, reqAddr_wireBits ha, h]
    rfl
  have hdecode : decodeFrame p (openFrame (trace ++ [⟨reqData d, reply⟩])) = .ok (Instr.writeOf p a d) := by
    rw [hopen, decodeFrame_encodeWrite]
  exact (deviceTarget_of_decodeFrame hdecode ..).trans (by rw [Instr.writeArgs?_writeOf, Nat.mod_eq_of_lt ha])

theorem deviceStore_reqData {p : Profile} {trace : List TraceEntry} {a : Nat} (ha : a < 2 ^ p.addrBits)
    (h : openFrame trace = [true, false, true] ++ msbBits a p.addrBits) (d : Word) (reply : Reply)
    (m : List Host.Cell) :
    deviceStore p (trace ++ [⟨reqData d, reply⟩]) (reqData d) m = memWriteWord m a (wordSplit d) := by
  rw [deviceStore, deviceTarget_reqData ha h]

/-- The mock stores in the two bytes of the word it finds, and nowhere else. -/
theorem deviceStore_keeps (p : Profile) (trace : List TraceEntry) (req : Request) (m : List Host.Cell) :
    (∀ w x, deviceTarget p trace req = some (w, x) →
      ∀ k, k ≠ 2 * w → k ≠ 2 * w + 1 → memRead (deviceStore p trace req m) k = memRead m k) ∧
    (deviceTarget p trace req = none → ∀ k, memRead (deviceStore p trace req m) k = memRead m k) := by
  refine ⟨fun w x htarget k h0 h1 => ?_, fun htarget k => ?_⟩ <;> rw [deviceStore, htarget]
  exact memRead_memWriteWord_of_ne m h0 h1 _

/-- EWDS's request closes a frame, which the mock reads as no WRITE. -/
theorem storesNothing_reqEwds (p : Profile) : StoresNothing p (reqEwds p) := by
  intro trace reply m
  have hopen : openFrame (trace ++ [⟨reqEwds p, reply⟩]) = encodeEwds p := by
    rw [openFrame_append, ← reqEwds_wireBits_eq_encodeEwds]
    rfl
  have htarget : deviceTarget p (trace ++ [⟨reqEwds p, reply⟩]) (reqEwds p) = none :=
    (deviceTarget_of_decodeFrame (by rw [hopen, decodeFrame_encodeEwds]) ..).trans (Instr.writeArgs?_ewdsOf p)
  rw [deviceStore, htarget]

/-! ## What the device of R59 stores (log 22, 24) -/

theorem recordFailure_eq_none_iff {x : Status} {f : Option Status} :
    recordFailure x f = none ↔ f = none ∧ x = .success := by
  cases f <;> simp [recordFailure]

theorem writeVisible_iff (s : State) :
    s.writeVisible = true ↔ s.cfg.profile = s.deviceProfile ∧ s.firstFail = none ∧ s.writeCycle ≤ s.cfg.tSettle := by
  simp [State.writeVisible, State.profileMatches, and_assoc]

/-- What a completed WRITE_WORD leaves in the device, if its write is visible, and otherwise. -/
theorem settleWrite_mem_of_visible {s : State} (ht : s.transport = .device) (hv : s.writeVisible = true) :
    (settleWrite s).mem = memWriteWord s.mem s.addrQ.toNat (wordSplit s.dataQ) := by
  rw [settleWrite_mem, if_pos ht, if_pos hv]

theorem settleWrite_mem_of_not_visible {s : State} (ht : s.transport = .device) (hv : s.writeVisible = false) :
    (settleWrite s).mem = [] := by
  rw [settleWrite_mem, if_pos ht, if_neg (by simp [hv])]

/-- An answered call that the mock does not see leaves the store alone. -/
theorem issueAnswered_mem_of_not_loopback {s : State} (h : s.transport ≠ .loopback) (req : Request) (ans : TxAnswer) :
    (issueAnswered req ans s).mem = s.mem := by
  rw [issueAnswered_mem, if_neg h]

/-! ## What a read is given (R98, R27) -/

/-- The bytes of an open READ frame are those of its word. -/
theorem frameByte_of_readFrame {p : Profile} {trace : List TraceEntry} {a : Nat} (ha : a < 2 ^ p.addrBits)
    (h : openFrame trace = encodeRead p a) (m : List Host.Cell) {k : Nat} (hk : k < 2) :
    frameByte p trace m k = memRead m (2 * a + k) := by
  simp [frameByte, h, decodeFrame_encodeRead, Instr.readArg?_readOf, Nat.mod_eq_of_lt ha, hk]

/-- Two bytes that the answer does not list and a device gives. -/
theorem pairOf_received_of_device {s : State} {ans : TxAnswer} (h : ans.rx = []) {b0 b1 : Byte}
    (h0 : s.deviceByte? ans 2 0 = some b0) (h1 : s.deviceByte? ans 2 1 = some b1) :
    pairOf (s.received ans 2) = ⟨b0, b1⟩ := by
  simp [received_of_nil s h, List.range_succ, h0, h1, pairOf]

/-- Two bytes that neither gives are drawn. -/
theorem pairOf_received_of_draws {s : State} {ans : TxAnswer} (h : ans.rx = [])
    (hd : ∀ k, s.deviceByte? ans 2 k = none) :
    pairOf (s.received ans 2) = ⟨Config.rxByte s.draws 0, Config.rxByte s.draws 1⟩ := by
  simp [received_of_draws h hd, List.range_succ, pairOf]

/-- The mock gives the bytes of a full read, the device of R59 those of a visible one. -/
def GivesBytes (s : State) (ans : TxAnswer) (n : Nat) : Prop :=
  (s.transport = .loopback ∧ fullRead ans n = true) ∨ (s.transport = .device ∧ s.readVisible ans n = true)

/-- In an open READ frame the two bytes given are those of the word stored under its address. -/
theorem pairOf_received_of_stored {s : State} {ans : TxAnswer} (h : ans.rx = []) (hgives : GivesBytes s ans 2) {a : Nat}
    (ha : a < 2 ^ s.cfg.profile.addrBits) (hopen : openFrame s.trace = encodeRead s.cfg.profile a) {d : Word}
    (hd : memReadWord s.mem a = some d) : pairOf (s.received ans 2) = wordSplit d := by
  obtain ⟨h0, h1⟩ := memRead_of_memReadWord hd
  have hbyte (k : Nat) (hk : k < 2) : s.deviceByte? ans 2 k = memRead s.mem (2 * a + k) := by
    rw [← frameByte_of_readFrame ha hopen s.mem hk]
    obtain ⟨ht, hfull⟩ | ⟨ht, hvisible⟩ := hgives
    · simp [State.deviceByte?, ht, hfull]
    · simp [State.deviceByte?, ht, hvisible]
  exact pairOf_received_of_device h ((hbyte 0 (by decide)).trans h0) ((hbyte 1 (by decide)).trans h1)

end Sys2Proof.Machine
end

section
/-! Command words, the rest of the codec family (40_codec.md): when one has a meaning (R86, R87), the data of WRITE and
what a device keeps of it (R94, R59), what READ brings back (R98), and what every command word leaves unchanged. -/

namespace Sys2Proof.Machine

open Sys2Proof.Statements

/-! ## When a command word has a meaning (R86, R87) -/

/-- A command word's meaning is one of its profile's frame. -/
theorem exec_eq_asFrameOf {i : Instr} {p : Profile} (h : i.profile? = some p) :
    ∃ run, ∀ s, exec i s = asFrameOf p run s := by
  cases i <;> simp only [Instr.profile?, Option.some.injEq, reduceCtorEq] at h <;> subst h <;> exact ⟨_, fun _ => rfl⟩

theorem exec_of_otherProfile {i : Instr} {p : Profile} (h : i.profile? = some p) {s : State} (hf : s.fault = [])
    (hp : s.cfg.profile ≠ p) : exec i s = .refused (.otherProfile p s.cfg.profile) := by
  obtain ⟨run, hrun⟩ := exec_eq_asFrameOf h
  rw [hrun, asFrameOf, faulted_false hf, if_neg Bool.false_ne_true, if_neg hp]

theorem exec_of_fault {i : Instr} {p : Profile} (h : i.profile? = some p) {s : State} (hf : s.fault ≠ []) :
    exec i s = .next s := by
  obtain ⟨run, hrun⟩ := exec_eq_asFrameOf h
  rw [hrun, asFrameOf, if_pos ((faulted_iff s).mpr hf)]

/-- Settles O34: the session's profile is asked for before anything else. -/
theorem otherProfileWordsAreRefused : Obligations.OtherProfileWordsAreRefused := fun _ _ _ h => exec_of_otherProfile h

theorem runEwen_outOfSequence (p : Profile) {s : State} (h : s.st ≠ .wEwen) :
    runEwen p s = .fault (.outOfSequence s.st) := by
  cases hs : s.st <;> simp_all [runEwen]

theorem runEwds_outOfSequence (p : Profile) {s : State} (h : s.st ≠ .wEwds) :
    runEwds p s = .fault (.outOfSequence s.st) := by
  cases hs : s.st <;> simp_all [runEwds]

theorem runWrite_outOfSequence (p : Profile) (a : Nat) (d : Word) {s : State} (ho : s.st ≠ .wOp) (ha : s.st ≠ .wAddr)
    (hd : s.st ≠ .wData) : runWrite p a d s = .fault (.outOfSequence s.st) := by
  cases hs : s.st <;> simp_all [runWrite]

theorem runRead_outOfSequence (p : Profile) (a : Nat) {s : State} (ho : s.st ≠ .rOp) (ha : s.st ≠ .rAddr)
    (hu : s.st ≠ .rDummy) (hd : s.st ≠ .rData) : runRead p a s = .fault (.outOfSequence s.st) := by
  cases hs : s.st <;> simp_all [runRead]

/-- Settles O35: each frame's meaning lists its states, and faults in the others. -/
theorem outOfSequenceWordsFault : Obligations.OutOfSequenceWordsFault := by
  intro s a d hf
  rw [exec_ewenOf hf, exec_ewdsOf hf, exec_writeOf hf, exec_readOf hf]
  exact ⟨runEwen_outOfSequence _, runEwds_outOfSequence _, runWrite_outOfSequence _ _ _, runRead_outOfSequence _ _⟩

/-! ## The data of WRITE (R94, R119) -/

theorem writeOf_issues_data (p : Profile) (a : Nat) (d : Word) :
    IssuesAndAdvances (Instr.writeOf p a d) p .wData (reqData d) := by
  rintro s hf rfl hst
  simp only [exec_writeOf hf, runWrite, hst, encData, issueThenAdvance]

theorem reqData_eq (d : Word) :
    reqData d = .write .bytes 2 [BitVec.ofNat 8 (d.toNat % 256), BitVec.ofNat 8 (d.toNat / 256)] false true := by
  rw [reqData, lowByte_eq_ofNat, highByte_eq_ofNat]

theorem writeOf_writeSendsData (p : Profile) (a : Nat) (d : Word) : WriteSendsData (Instr.writeOf p a d) p d := by
  rintro req hreq
  obtain rfl : req = reqData d := hreq.trans (reqData_eq d).symm
  refine ⟨by rw [reqData_wireBits, lowByte_toNat, highByte_toNat], fun s ans hr => ?_,
    (writeOf_issues_data p a d).faultsOn rfl⟩
  have hexec := Issues.exec_eq (writeOf_issues_data p a d) rfl hr
  obtain ⟨-, rfl, hst, -, -⟩ := hr
  have hissued := issueAnswered_with_mem (reqData d) ans s (issueAnswered (reqData d) ans s).mem
  have hnext : (issueAnswered (reqData d) ans s).st.next = .wStrbOn := by rw [issueAnswered_st, hst, Seq.next]
  rw [hexec, advance, hnext]
  exact congrArg (fun t : State => Host.Outcome.next { t with st := .wStrbOn }) hissued

/-- Settles O26: the data request is a continuation that releases CS, and stores what the mock's function says. -/
theorem writeRowsSendData : Obligations.WriteRowsSendData :=
  ⟨fun a d => by simpa [Instr.writeOf] using writeOf_writeSendsData .p6 a.toNat d,
    fun a d => by simpa [Instr.writeOf] using writeOf_writeSendsData .p7 a.toNat d,
    fun a d => by simpa [Instr.writeOf] using writeOf_writeSendsData .p8 a.toNat d⟩

/-! ## What the devices keep of a write (R59, log 7, 22, 24) -/

/-- Settles O30: the mock finds the WRITE frame that the data closes, and stores its word. -/
theorem mockStoresTheWriteFrame : Obligations.MockStoresTheWriteFrame := by
  intro s p a d ans hr ha ht hopen
  have hexec := Issues.exec_eq (writeOf_issues_data p a d) rfl hr
  obtain ⟨-, rfl, -, -, -⟩ := hr
  have hmem : (advance (issueAnswered (reqData d) ans s)).mem = memWriteWord s.mem a (wordSplit d) := by
    rw [advance_mem, issueAnswered_mem, if_pos ht, deviceStore_reqData ha hopen]
  refine ⟨_, hexec, ?_, ?_, ?_, fun k h0 h1 => ?_⟩ <;> rw [hmem]
  · exact memReadWord_memWriteWord s.mem a d
  · rw [memRead_memWriteWord_low, ← lowByte_eq_ofNat]
    rfl
  · rw [memRead_memWriteWord_high, ← highByte_eq_ofNat]
    rfl
  · exact memRead_memWriteWord_of_ne s.mem h0 h1 _

/-- Settles O32: the write is visible exactly when its last answer is SUCCESS too and the other conditions hold. -/
theorem deviceKeepsVisibleWrites : Obligations.DeviceKeepsVisibleWrites := by
  intro s p ans hr ht
  have hexec := Issues.exec_eq (ewdsOf_issues p) rfl hr
  obtain ⟨-, rfl, hst, -, -⟩ := hr
  have hmem : (issueAnswered (reqEwds s.cfg.profile) ans s).mem = s.mem :=
    issueAnswered_mem_of_not_loopback (by rw [ht]; decide) _ ans
  have hvisible : (issueAnswered (reqEwds s.cfg.profile) ans s).writeVisible = true ↔
      s.cfg.profile = s.deviceProfile ∧ (s.firstFail = none ∧ ans.status = .success) ∧
        s.writeCycle ≤ s.cfg.tSettle := by
    rw [writeVisible_iff, issueAnswered_firstFail, recordFailure_eq_none_iff]
    rfl
  replace ht : (issueAnswered (reqEwds s.cfg.profile) ans s).transport = .device := ht
  refine ⟨_, hexec, by simp [hst, Seq.next], fun ⟨hff, hans, hsettle, hp⟩ => ?_, fun hfails => ?_⟩
  · have hkept := settleWrite_mem_of_visible ht (hvisible.mpr ⟨hp, ⟨hff, hans⟩, hsettle⟩)
    rw [complete_mem, hkept, hmem]
    exact ⟨memReadWord_memWriteWord s.mem _ _, fun k h0 h1 => memRead_memWriteWord_of_ne s.mem h0 h1 _⟩
  · refine settleWrite_mem_of_not_visible ht (Bool.eq_false_iff.mpr fun hv => ?_)
    obtain ⟨hp, ⟨hff, hans⟩, hsettle⟩ := hvisible.mp hv
    exact hfails.elim (· hff) fun h => h.elim (· hans) fun h => h.elim (Nat.not_lt.mpr hsettle) (· hp)

/-! ## What READ brings back (R98, D15, I7) -/

theorem recordFailure_success (f : Option Status) : recordFailure .success f = f := by
  cases f <;> rfl

/-- A READ of R_DATA, answered: the pair received goes to `rx_q` and, as a word, to the response. -/
theorem exec_readOf_rData {s : State} {p : Profile} {ans : TxAnswer} (hr : ReadyAt s p .rData .asserted ans)
    (a : Nat) {rx : BytePair} (hrx : pairOf (s.received ans 2) = rx) :
    exec (Instr.readOf p a) s = .next (takeWord rx ans.nXfer (issueAnswered reqRead ans s)) :=
  hrx ▸ Issues.exec_eq (readOf_issues_read p a) rfl hr

/-- A read stores nothing, whatever device stands behind the transport. -/
theorem issueAnswered_reqRead_mem (ans : TxAnswer) (s : State) : (issueAnswered reqRead ans s).mem = s.mem := by
  rw [issueAnswered_mem]
  exact ite_self _

/-- Settles O31: the mock's own answer is a full read, and its bytes are those of the frame's word. -/
theorem mockReturnsTheStoredWord : Obligations.MockReturnsTheStoredWord := by
  rintro s p a d hf rfl hst hcs htx ht ha hopen hd
  have hans : s.answer? = some ⟨.success, max 2 (Config.txAnswer s.draws).nXfer, []⟩ := by simp [State.answer?, htx, ht]
  have hfull : fullRead ⟨.success, max 2 (Config.txAnswer s.draws).nXfer, []⟩ 2 = true := by simp [fullRead]
  have hrx := pairOf_received_of_stored rfl (.inl ⟨ht, hfull⟩) ha hopen hd
  have hword : wordAssemble (wordSplit d) = d := wordAssemble_wordSplit d
  refine ⟨_, exec_readOf_rData ⟨hf, rfl, hst, hcs, hans⟩ a hrx, issueAnswered_reqRead_mem _ s, rfl, ?_, ?_⟩
  · rw [takeWord_rxQ, wordSplit, lowByte_eq_ofNat, highByte_eq_ofNat]
  · rw [takeWord_responses, resultStatus_eq_resultOf, hword]
    simp [resultOf, recordFailure_success]

/-- Settles O60: no device gives a byte of such a read, so both are drawn. -/
theorem shortOrMismatchedReadsAreDraws : Obligations.ShortOrMismatchedReadsAreDraws := by
  intro s p a ans hr hrx hcase
  have hdraws : ∀ k, s.deviceByte? ans 2 k = none := by
    intro k
    by_cases hfull : fullRead ans 2 = true
    · have hmismatched : s.transport = .device ∧ s.deviceProfile ≠ p := by
        simp only [fullRead, Bool.and_eq_true, decide_eq_true_eq] at hfull
        obtain h | h | h := hcase
        · omega
        · obtain ⟨hok, -⟩ := hfull
          exact absurd hok h
        · exact h
      obtain ⟨hdevice, hp⟩ := hmismatched
      obtain ⟨-, rfl, -, -, -⟩ := hr
      exact deviceByte?_of_mismatch hdevice (by simp [State.profileMatches, hp.symm]) ans 2 k
    · exact deviceByte?_of_not_full s (by simpa using hfull) k
  have hexec := exec_readOf_rData hr a (pairOf_received_of_draws hrx hdraws)
  obtain ⟨-, rfl, hst, hcs, -⟩ := hr
  refine ⟨_, hexec, by simp [hst, Seq.next], rfl, rfl, rfl, issueAnswered_reqRead_mem ans s, rfl, ?_⟩
  rw [takeWord_responses, resultStatus_eq_resultOf]
  rfl

/-! ## What every command word leaves unchanged -/

/-- The request of each command word in each sequencer state of its frame (R81). -/
inductive WordRequest (p : Profile) : Instr → Seq → Request → Prop where
  | ewen : WordRequest p (Instr.ewenOf p) .wEwen (reqEwen p)
  | ewds : WordRequest p (Instr.ewdsOf p) .wEwds (reqEwds p)
  | writeOp (a : Nat) (d : Word) : WordRequest p (Instr.writeOf p a d) .wOp reqWriteOp
  | writeAddr (a : Nat) (d : Word) : WordRequest p (Instr.writeOf p a d) .wAddr (reqAddr p a)
  | writeData (a : Nat) (d : Word) : WordRequest p (Instr.writeOf p a d) .wData (reqData d)
  | readOp (a : Nat) : WordRequest p (Instr.readOf p a) .rOp reqReadOp
  | readAddr (a : Nat) : WordRequest p (Instr.readOf p a) .rAddr (reqAddr p a)
  | readDummy (a : Nat) : WordRequest p (Instr.readOf p a) .rDummy reqDummy
  | readData (a : Nat) : WordRequest p (Instr.readOf p a) .rData reqRead

/-- With the mock, only WRITE's data request stores. -/
theorem WordRequest.storesNothing {p : Profile} {i : Instr} {st : Seq} {req : Request} (h : WordRequest p i st req)
    (hst : st ≠ .wData) : StoresNothing p req := by
  cases h
  case ewen => exact storesNothing_reqEwen p
  case ewds => exact storesNothing_reqEwds p
  case writeData => exact absurd rfl hst
  case readData => exact storesNothing_of_read
  all_goals exact storesNothing_of_open

/-- A WRITE word issues its own data in W_DATA. -/
theorem WordRequest.eq_reqData {p : Profile} {i : Instr} {st : Seq} {req : Request} (h : WordRequest p i st req)
    {a : Nat} {d : Word} (hargs : i.writeArgs? = some (a, d)) (hst : st = .wData) : req = reqData d := by
  cases h <;> cases hst
  case writeData =>
    rw [Instr.writeArgs?_writeOf] at hargs
    obtain ⟨-, rfl⟩ := Prod.mk.inj (Option.some.inj hargs)
    rfl

theorem WordRequest.not_wEwds {p : Profile} {i : Instr} {st : Seq} {req : Request} (h : WordRequest p i st req)
    {a : Nat} {d : Word} (hargs : i.writeArgs? = some (a, d)) : st ≠ .wEwds := by
  rintro rfl
  cases h
  rw [Instr.writeArgs?_ewdsOf] at hargs
  cases hargs

/-- What the sequencer does after the call in a state that is not the last. -/
theorem IssuesAndAdvances.exec_eq_issue_finish {i : Instr} {p : Profile} {st : Seq} {req : Request}
    (h : IssuesAndAdvances i p st req) (hnext : st.next ≠ .idle) {s : State} (hf : s.fault = [])
    (hp : s.cfg.profile = p)    (hst : s.st = st) : exec i s = .next (issue req s.finish s) := by
  rw [h s hf hp hst, finish_of_next hst hnext]

/-- A command word of the session's profile issues the request of its state, which the rest of the step follows; out of
its frame's states it has no next state. -/
theorem exec_ownWord {s : State} (hf : s.fault = []) {i : Instr} (hi : i.profile? = some s.cfg.profile) :
    exec i s = .fault (.outOfSequence s.st) ∨
      ∃ req, WordRequest s.cfg.profile i s.st req ∧ exec i s = .next (issue req s.finish s) := by
  generalize hst : s.st = st
  obtain rfl | rfl | ⟨a, d, rfl⟩ | ⟨a, rfl⟩ := Instr.row_of_profile? hi
  · by_cases h : st = .wEwen
    · subst h
      exact .inr ⟨_, .ewen, (ewenOf_issues _).exec_eq_issue_finish (by decide) hf rfl hst⟩
    · exact .inl (by rw [exec_ewenOf hf, runEwen_outOfSequence _ (hst ▸ h), hst])
  · by_cases h : st = .wEwds
    · subst h
      exact .inr ⟨_, .ewds, by rw [ewdsOf_issues _ s hf rfl hst, finish_of_wEwds hst]⟩
    · exact .inl (by rw [exec_ewdsOf hf, runEwds_outOfSequence _ (hst ▸ h), hst])
  · cases st
    case wOp => exact .inr ⟨_, .writeOp a d, (writeOf_issues_opcode _ a d).exec_eq_issue_finish (by decide) hf rfl hst⟩
    case wAddr =>
      exact .inr ⟨_, .writeAddr a d, (writeOf_issues_address _ a d).exec_eq_issue_finish (by decide) hf rfl hst⟩
    case wData =>
      exact .inr ⟨_, .writeData a d, (writeOf_issues_data _ a d).exec_eq_issue_finish (by decide) hf rfl hst⟩
    all_goals
      refine .inl ?_
      rw [exec_writeOf hf, runWrite_outOfSequence, hst] <;> simp [hst]
  · cases st
    case rOp => exact .inr ⟨_, .readOp a, (readOf_issues_opcode _ a).exec_eq_issue_finish (by decide) hf rfl hst⟩
    case rAddr => exact .inr ⟨_, .readAddr a, (readOf_issues_address _ a).exec_eq_issue_finish (by decide) hf rfl hst⟩
    case rDummy => exact .inr ⟨_, .readDummy a, (readOf_issues_dummy _ a).exec_eq_issue_finish (by decide) hf rfl hst⟩
    case rData => exact .inr ⟨_, .readData a, by rw [readOf_issues_read _ a s hf rfl hst, finish_of_rData hst]⟩
    all_goals
      refine .inl ?_
      rw [exec_readOf hf, runRead_outOfSequence, hst] <;> simp [hst]

/-- Everything a command word can lead to: no change but a fault raised, if any; or the request of its state, issued and
answered. -/
theorem exec_commandWord {s t : State} {i : Instr} {p : Profile} (hi : i.profile? = some p) (h : exec i s = .next t) :
    (∃ fs, t = { s with fault := fs }) ∨
      (s.cfg.profile = p ∧ ∃ req ans, WordRequest p i s.st req ∧ t = s.finish ans (issueAnswered req ans s)) := by
  by_cases hf : s.fault = []
  · by_cases hp : s.cfg.profile = p
    · subst hp
      obtain hout | ⟨req, hreq, hexec⟩ := exec_ownWord hf hi
      · rw [hout] at h
        cases h
      obtain rfl := Host.Outcome.next.inj (hexec.symm.trans h)
      obtain ⟨-, hissue⟩ | ⟨-, -, hissue⟩ | ⟨-, ans, -, hissue⟩ := issue_cases req s.finish s
      · exact .inl ⟨_, hissue⟩
      · exact .inl ⟨s.fault, hissue⟩
      · exact .inr ⟨rfl, req, ans, hreq, hissue⟩
    · rw [exec_of_otherProfile hi hf hp] at h
      cases h
  · obtain rfl := Host.Outcome.next.inj ((exec_of_fault hi hf).symm.trans h)
    exact .inl ⟨s.fault, rfl⟩

section
variable {s : State} {i : Instr} {req : Request} (hreq : WordRequest s.cfg.profile i s.st req) (ans : TxAnswer)

/-- In W_DATA the store is the mock's, if it is there. -/
theorem finish_mem_of_not_wEwds (hst : s.st ≠ .wEwds) :
    (s.finish ans (issueAnswered req ans s)).mem = (issueAnswered req ans s).mem := by
  rw [finish_mem, if_neg hst]

include hreq

theorem issued_mem_of_word (h : s.st ≠ .wData ∨ s.transport ≠ .loopback) :
    (issueAnswered req ans s).mem = s.mem := by
  by_cases ht : s.transport = .loopback
  · rw [issueAnswered_mem, hreq.storesNothing (h.resolve_right (not_not.mpr ht)), ite_self]
  · exact issueAnswered_mem_of_not_loopback ht req ans

/-- Outside the two places where a store changes, it does not. -/
theorem finish_mem_of_word (h : s.st ≠ .wData ∨ s.transport ≠ .loopback) (hd : s.st ≠ .wEwds ∨ s.transport ≠ .device) :
    (s.finish ans (issueAnswered req ans s)).mem = s.mem := by
  have hissued := issued_mem_of_word hreq ans h
  by_cases hst : s.st = .wEwds
  · have ht : (issueAnswered req ans s).transport ≠ .device := hd.resolve_left (not_not.mpr hst)
    rw [finish_mem, if_pos hst, settleWrite_eq ht, hissued]
  · rw [finish_mem, if_neg hst, hissued]

end

/-- Settles O29: a word that raises a fault or waits changes nothing of these; one that issues its request changes the
store by the mock's function of the trace, or by the device's of the completed write. -/
theorem commandWordsFrame : Obligations.CommandWordsFrame := by
  intro s t i p hi h
  obtain ⟨fs, rfl⟩ | ⟨rfl, req, ans, hreq, rfl⟩ := exec_commandWord hi h
  · exact ⟨rfl, rfl, rfl, rfl, rfl, rfl, rfl, rfl, rfl, rfl, fun _ => ⟨rfl, rfl⟩, fun _ _ => rfl, fun _ _ _ => rfl,
      fun hw _ hidle => absurd (hw.symm.trans hidle) (by decide), fun _ _ _ => ⟨fun _ _ _ _ _ _ => rfl, fun _ _ => rfl⟩⟩
  refine ⟨by simp, by simp, by simp, by simp, by simp, by simp, by simp, by simp, by simp, by simp,
    fun hr => ?_, fun hw hr => ?_, fun hd hw a => ?_, fun hw ht _ => ?_, fun a d hargs => ?_⟩
  · rw [finish_rxQ, finish_nxQ, if_neg hr, if_neg hr]
    exact ⟨rfl, rfl⟩
  · rw [finish_responses, if_neg hw, if_neg hr]
    rfl
  · have hw' : s.st ≠ .wEwds ∨ s.transport ≠ .device := by
      by_cases hst : s.st = .wEwds
      · exact .inr ((hw.resolve_left (not_not.mpr hst)).resolve_right (by simp [hst, Seq.next]))
      · exact .inl hst
    rw [finish_mem_of_word hreq ans hd hw']
  · have hissued := issued_mem_of_word hreq ans (.inl (by rw [hw]; decide))
    have hvisible := writeVisible_iff (issueAnswered req ans s)
    replace ht : (issueAnswered req ans s).transport = .device := ht
    rw [finish_mem, if_pos hw, finish_firstFail, finish_writeCycle, finish_cfg, finish_deviceProfile]
    refine ⟨fun hff hsettle hp k h0 h1 => ?_, fun hfails k => ?_⟩
    · rw [settleWrite_mem_of_visible ht (hvisible.mpr ⟨hp, hff, hsettle⟩), hissued]
      exact memRead_memWriteWord_of_ne _ h0 h1 _
    · rw [settleWrite_mem_of_not_visible ht (Bool.eq_false_iff.mpr fun hv => ?_)]
      · rfl
      · obtain ⟨hp, hff, hsettle⟩ := hvisible.mp hv
        exact hfails.elim (· hff) fun h => h.elim (Nat.not_lt.mpr hsettle) (· hp)
  · by_cases hst : s.st = .wData
    · obtain rfl := hreq.eq_reqData hargs hst
      rw [finish_mem_of_not_wEwds ans (by rw [hst]; decide), finish_trace, issueAnswered_mem, issueAnswered_trace]
      split
      · exact deviceStore_keeps _ _ _ _
      · exact ⟨fun _ _ _ _ _ _ => rfl, fun _ _ => rfl⟩
    · rw [finish_mem_of_word hreq ans (.inl hst) (.inl (hreq.not_wEwds hargs))]
      exact ⟨fun _ _ _ _ _ _ => rfl, fun _ _ => rfl⟩

end Sys2Proof.Machine
end

section
/-! Transactions (41_sequencer.md R115, R125): the block midway through one, in closed form, the steps from there, and
the runs of WRITE_WORD and READ_WORD put together from them. -/

namespace Sys2Proof.Machine

open Sys2Proof.Statements

/-! ## The answers a block is given (R27) -/

/-- The answer to the call that follows `k` calls: as many have left the response port, and been drawn. -/
def State.answerAfter (s : State) (k : Nat) : Option TxAnswer :=
  { s with txIn := s.txIn.drop k, draws := s.draws + k }.answer?

/-- The next calls of the block are answered with this list. -/
def State.AnsweredWith (s : State) (answers : List TxAnswer) : Prop :=
  ∀ k ans, answers[k]? = some ans → s.answerAfter k = some ans

theorem answeredWith_of_txIn {s : State} {answers more : List TxAnswer} (h : s.txIn = answers ++ more) :
    s.AnsweredWith answers := by
  intro k ans hk
  obtain ⟨hlt, rfl⟩ := List.getElem?_eq_some_iff.mp hk
  have hdrop : s.txIn.drop k = answers[k] :: (answers.drop (k + 1) ++ more) := by
    rw [h, List.drop_append_of_le_length hlt.le, List.drop_eq_getElem_cons hlt, List.cons_append]
  simp [State.answerAfter, State.answer?, hdrop]

/-- A transport that is not silent always answers (R169). -/
theorem answer?_isSome {s : State} (h : s.transport ≠ .silent) : s.answer?.isSome := by
  unfold State.answer?
  split
  · rfl
  · split
    case h_4 hsilent => exact absurd hsilent h
    all_goals rfl

theorem exists_answeredWith {s : State} (h : s.transport ≠ .silent) :
    ∃ ans : Nat → TxAnswer, ∀ n, s.AnsweredWith ((List.range n).map ans) := by
  have hsome (k : Nat) : (s.answerAfter k).isSome := answer?_isSome h
  refine ⟨fun k => (s.answerAfter k).get (hsome k), fun n k ans hk => ?_⟩
  obtain ⟨hlt, rfl⟩ := List.getElem?_eq_some_iff.mp hk
  simp

/-- The mock's own answer to the call that follows `k` others (log 7). -/
def mockAnswer (s : State) (k : Nat) : TxAnswer := ⟨.success, max 2 (Config.txAnswer (s.draws + k)).nXfer, []⟩

theorem answeredWith_mock {s : State} (ht : s.transport = .loopback) (htx : s.txIn = []) (n : Nat) :
    s.AnsweredWith ((List.range n).map (mockAnswer s)) := by
  intro k ans hk
  obtain ⟨hlt, rfl⟩ := List.getElem?_eq_some_iff.mp hk
  simp [State.answerAfter, State.answer?, ht, htx, mockAnswer]

/-! ## The statuses of the calls (R34, R131) -/

/-- `first_fail` after some more calls. -/
def failureAfter (f : Option Status) (calls : List TxAnswer) : Option Status :=
  calls.foldl (fun f ans => recordFailure ans.status f) f

theorem failureAfter_some (x : Status) (calls : List TxAnswer) : failureAfter (some x) calls = some x := by
  induction calls with
  | nil => rfl
  | cons ans calls ih => exact ih

/-- From none, `first_fail` holds what FIRST_FAILURE returns, unless that is SUCCESS. -/
theorem failureAfter_none (calls : List TxAnswer) :
    failureAfter none calls =
      if firstFailureOf (calls.map (·.status)) = .success then none
      else some (firstFailureOf (calls.map (·.status))) := by
  induction calls with
  | nil => rfl
  | cons ans calls ih =>
    by_cases h : ans.status = .success
    · simpa [failureAfter, recordFailure, firstFailureOf, h] using ih
    · simpa [failureAfter, recordFailure, firstFailureOf, h] using failureAfter_some ans.status calls

theorem failureAfter_none_eq_none_iff {calls : List TxAnswer} :
    failureAfter none calls = none ↔ firstFailureOf (calls.map (·.status)) = .success := by
  rw [failureAfter_none]
  split <;> simp [*]

/-! ## Midway through a transaction -/

/-- `s` later in its transaction: in sequencer state `st`, framed, after its calls have been answered with `calls`, with
the trace lines and the store they have left. -/
def State.midway (s : State) (st : Seq) (calls : List TxAnswer) (lines : List TraceEntry)
    (m : List Host.Cell) : State :=
  { s with
    st := st
    cs := st.csOnEntry
    lastStatus := (calls.map (·.status)).getLastD s.lastStatus
    firstFail := failureAfter s.firstFail calls
    trace := s.trace ++ lines
    txIn := s.txIn.drop calls.length
    draws := s.draws + calls.length
    mem := m }

/-- `s` at the end of its transaction, its response delivered (R124, R130, R131). -/
def State.responding (s : State) (calls : List TxAnswer) (lines : List TraceEntry) (m : List Host.Cell)
    (data : Option Word) : State :=
  { s.midway .idle calls lines m with
    responses := s.responses ++ [⟨transactionStatus s.cfg.statusPolicy (calls.map (·.status)), data⟩] }

section
variable (s : State) (st : Seq) (calls : List TxAnswer) (lines : List TraceEntry) (m : List Host.Cell)
@[simp] theorem midway_cfg : (s.midway st calls lines m).cfg = s.cfg := rfl
@[simp] theorem midway_trace : (s.midway st calls lines m).trace = s.trace ++ lines := rfl
@[simp] theorem midway_transport : (s.midway st calls lines m).transport = s.transport := rfl
@[simp] theorem midway_mem : (s.midway st calls lines m).mem = m := rfl
@[simp] theorem midway_draws : (s.midway st calls lines m).draws = s.draws + calls.length := rfl
@[simp] theorem midway_firstFail : (s.midway st calls lines m).firstFail = failureAfter s.firstFail calls := rfl
end

theorem midway_nil {s : State} (hcs : s.csFramed) : s.midway s.st [] [] s.mem = s := by
  simp [State.midway, failureAfter, ← hcs]

section
variable {s : State} {st : Seq} {calls : List TxAnswer} {lines : List TraceEntry} {m : List Host.Cell}

theorem midway_resultStatus (hff : s.firstFail = none) (hcalls : calls ≠ []) :
    (s.midway st calls lines m).resultStatus = transactionStatus s.cfg.statusPolicy (calls.map (·.status)) := by
  cases hp : s.cfg.statusPolicy with
  | last =>
    obtain ⟨init, last, rfl⟩ := List.eq_nil_or_concat calls |>.resolve_left hcalls
    simp [State.resultStatus, State.midway, hp, transactionStatus]
  | firstFailure =>
    simp only [State.resultStatus, State.midway, hp, hff, failureAfter_none, transactionStatus]
    split <;> simp [*]

/-- An answered call moves the block on to the next view, whatever it does after it. -/
theorem issueAnswered_midway {req : Request} (hreq : (s.midway st calls lines m).request? = some req)
    (ans : TxAnswer) :
    issueAnswered req ans (s.midway st calls lines m) =
      { s.midway st.next (calls ++ [ans]) (lines ++ [⟨req, replyTo req ans (s.midway st calls lines m)⟩])
          (issueAnswered req ans (s.midway st calls lines m)).mem with st := st } := by
  have hcs : csAfter req st.csOnEntry = st.next.csOnEntry := csAfter_request hreq rfl
  simp [issueAnswered, State.midway, hcs, failureAfter, Nat.add_assoc]

theorem settleWrite_eq_with_own_mem (t : State) : settleWrite t = { t with mem := (settleWrite t).mem } := by
  unfold settleWrite
  split <;> rfl

/-- The completion of a WRITE_WORD, once EWDS is answered. -/
theorem complete_settleWrite_midway (hff : s.firstFail = none) (hcalls : calls ≠ []) :
    complete none (settleWrite (s.midway .wEwds calls lines m)) =
      s.responding calls lines (settleWrite (s.midway .wEwds calls lines m)).mem none := by
  have hstatus := (settleWrite_resultStatus (s.midway .wEwds calls lines m)).trans (midway_resultStatus hff hcalls)
  rw [complete, hstatus, settleWrite_eq_with_own_mem]
  rfl

/-! ## The steps from there -/

variable (hf : s.fault = [])
include hf

/-- A call is issued and answered, and the rest of the step follows. -/
theorem step_midway_call {req : Request} (hreq : (s.midway st calls lines m).request? = some req)
    (hcall : req.isCall = true) {ans : TxAnswer} (ha : s.answerAfter calls.length = some ans) :
    step (s.midway st calls lines m) = .next ((s.midway st calls lines m).finish ans
      { s.midway st.next (calls ++ [ans]) (lines ++ [⟨req, replyTo req ans (s.midway st calls lines m)⟩])
          (issueAnswered req ans (s.midway st calls lines m)).mem with st := st }) := by
  have hc : csCheck req (s.midway st calls lines m).cs = none := csCheck_of_csFramed hreq rfl
  rw [step_call (s := s.midway st calls lines m) hf hreq hcall, issue_answered hc ha]
  exact congrArg (fun t => Host.Outcome.next ((s.midway st calls lines m).finish ans t)) (issueAnswered_midway hreq ans)

/-- A write that does not end the transaction. -/
theorem step_midway_write {u : TxUnit} {n : Nat} {b : List Byte} {acs dcs : Bool}
    (hreq : (s.midway st calls lines m).request? = some (.write u n b acs dcs)) (hnext : st.next ≠ .idle)
    {ans : TxAnswer} (ha : s.answerAfter calls.length = some ans) {m' : List Host.Cell}
    (hm : (issueAnswered (.write u n b acs dcs) ans (s.midway st calls lines m)).mem = m') :
    step (s.midway st calls lines m) =
      .next (s.midway st.next (calls ++ [ans]) (lines ++ [⟨.write u n b acs dcs, .status ans.status⟩]) m') := by
  rw [step_midway_call hf hreq rfl ha, hm, finish_of_next rfl hnext]
  rfl

theorem step_midway_settle (he : s.settleEnds = true) :
    step (s.midway .wSettle calls lines m) =
      .next (s.midway .wStrbOff calls (lines ++ [⟨.delay s.cfg.tSettle, .settled⟩]) m) := by
  rw [step_wSettle (s := s.midway .wSettle calls lines m) hf rfl,
    settleDelay_of_settleEnds (s := s.midway .wSettle calls lines m) he]
  simp [State.midway, advance, Seq.next, Seq.csOnEntry]

/-- EWDS, which ends a WRITE_WORD (R123, R124). -/
theorem step_midway_ewds (hff : s.firstFail = none) {ans : TxAnswer} (ha : s.answerAfter calls.length = some ans) :
    step (s.midway .wEwds calls lines m) = .next (s.responding (calls ++ [ans])
      (lines ++ [⟨reqEwds s.cfg.profile, .status ans.status⟩])
      (settleWrite (s.midway .wEwds (calls ++ [ans]) (lines ++ [⟨reqEwds s.cfg.profile, .status ans.status⟩]) m)).mem
      none) := by
  have hreq : (s.midway .wEwds calls lines m).request? = some (reqEwds s.cfg.profile) := rfl
  have hm : (issueAnswered (reqEwds s.cfg.profile) ans (s.midway .wEwds calls lines m)).mem = m :=
    issued_mem_of_word (s := s.midway .wEwds calls lines m) .ewds ans (.inl (show Seq.wEwds ≠ .wData by decide))
  rw [step_midway_call hf hreq rfl ha, hm, finish_of_wEwds rfl]
  exact congrArg Host.Outcome.next (complete_settleWrite_midway hff (by simp))

/-- The read, which ends a READ_WORD (R98, R129, R130). -/
theorem step_midway_read (hff : s.firstFail = none) {ans : TxAnswer} (ha : s.answerAfter calls.length = some ans)
    {rx : BytePair} (hrx : pairOf ((s.midway .rData calls lines m).received ans 2) = rx) :
    step (s.midway .rData calls lines m) = .next { s.responding (calls ++ [ans])
      (lines ++ [⟨reqRead, .read ans.status ans.nXfer [rx.b0, rx.b1]⟩]) m (some (wordAssemble rx)) with
        rxQ := rx, nxQ := ans.nXfer } := by
  subst hrx
  have hreq : (s.midway .rData calls lines m).request? = some reqRead := rfl
  have hstatus := midway_resultStatus (s := s) (st := .idle) (calls := calls ++ [ans])
    (lines := lines ++ [⟨reqRead, replyTo reqRead ans (s.midway .rData calls lines m)⟩]) (m := m) hff (by simp)
  rw [step_midway_call hf hreq rfl ha, issueAnswered_reqRead_mem, finish_of_rData rfl, State.responding, ← hstatus,
    ← received_two]
  rfl

end

/-! ## The store midway -/

/-- The store once the data of a WRITE frame has gone by. -/
def State.mockStored (s : State) : List Host.Cell :=
  if s.transport = .loopback then memWriteWord s.mem s.addrQ.toNat (wordSplit s.dataQ) else s.mem

section
variable {s : State} {calls : List TxAnswer} {lines : List TraceEntry} {m : List Host.Cell} {ans : TxAnswer}

theorem issueAnswered_midway_of_storesNothing {st : Seq} {req : Request} (h : StoresNothing s.cfg.profile req) :
    (issueAnswered req ans (s.midway st calls lines m)).mem = m := by
  rw [issueAnswered_mem, midway_cfg, midway_mem, h, ite_self]

/-- The data request, after the WRITE frame's opcode and address. -/
theorem issueAnswered_midway_reqData (ha : s.addrInRange)
    (hopen : openFrame (s.trace ++ lines) = [true, false, true] ++ msbBits s.addrQ.toNat s.cfg.profile.addrBits) :
    (issueAnswered (reqData s.dataQ) ans (s.midway .wData calls lines s.mem)).mem = s.mockStored := by
  rw [issueAnswered_mem, midway_transport, midway_cfg, midway_trace, midway_mem, deviceStore_reqData ha hopen,
    State.mockStored]

/-- The request that ends the strobe frame closes a frame without bits, which is no instruction's. -/
theorem issueAnswered_midway_reqStrobeOff (hopen : openFrame (s.trace ++ lines) = []) :
    (issueAnswered reqStrobeOff ans (s.midway .wStrbOff calls lines m)).mem = m := by
  have htarget (reply : Reply) :
      deviceTarget s.cfg.profile (s.trace ++ lines ++ [⟨reqStrobeOff, reply⟩]) reqStrobeOff = none := by
    have hframe : openFrame (s.trace ++ lines ++ [⟨reqStrobeOff, reply⟩]) = [] := by
      rw [openFrame_append, hopen]
      rfl
    have hdecode : decodeFrame s.cfg.profile [] = .error .frameLength := rfl
    simp only [deviceTarget, reqStrobeOff] at hframe ⊢
    rw [hframe, hdecode]
  rw [issueAnswered_mem, midway_cfg, midway_trace, midway_mem, deviceStore, htarget, ite_self]

end

/-! ## WRITE_WORD, from its first request -/

/-- The trace lines of a WRITE_WORD whose seven calls are answered so (R81). -/
def writeLines (s : State) (a b c d e f g : TxAnswer) : List TraceEntry :=
  [⟨reqEwen s.cfg.profile, .status a.status⟩, ⟨reqWriteOp, .status b.status⟩,
    ⟨reqAddr s.cfg.profile s.addrQ.toNat, .status c.status⟩, ⟨reqData s.dataQ, .status d.status⟩,
    ⟨reqStrobeOn, .status e.status⟩, ⟨.delay s.cfg.tSettle, .settled⟩, ⟨reqStrobeOff, .status f.status⟩,
    ⟨reqEwds s.cfg.profile, .status g.status⟩]

/-- The state after the eight steps of a WRITE_WORD. -/
def State.written (s : State) (a b c d e f g : TxAnswer) : State :=
  s.responding [a, b, c, d, e, f, g] (writeLines s a b c d e f g)
    (settleWrite (s.midway .wEwds [a, b, c, d, e, f, g] (writeLines s a b c d e f g) s.mockStored)).mem none

/-- Midway through that WRITE_WORD, after the first `n` of its lines. -/
abbrev State.writing (s : State) (a b c d e f g : TxAnswer) (st : Seq) (calls : List TxAnswer) (n : Nat)
    (m : List Host.Cell) : State := s.midway st calls ((writeLines s a b c d e f g).take n) m

section
variable {s : State}

/-- The WRITE frame that W_DATA continues. -/
theorem openFrame_writeLines_three (haddr : s.addrInRange) (a b c d e f g : TxAnswer) :
    openFrame (s.trace ++ (writeLines s a b c d e f g).take 3) =
      [true, false, true] ++ msbBits s.addrQ.toNat s.cfg.profile.addrBits := by
  rw [← reqAddr_wireBits haddr]
  simp [openFrame, writeLines, reqEwen, reqWriteOp, Request.acs]
  rfl

/-- The strobe frame that W_STRB_OFF continues. -/
theorem openFrame_writeLines_six (s : State) (a b c d e f g : TxAnswer) :
    openFrame (s.trace ++ (writeLines s a b c d e f g).take 6) = [] := by
  simp [openFrame, writeLines, reqEwen, reqWriteOp, reqStrobeOn, Request.acs, Request.wireBits, bufferBits]

/-- The eight steps of R115: the requests in order, and one response without data. -/
theorem run_writeSequence (hf : s.fault = []) (hs : s.st = .wEwen) (hcs : s.csFramed) (hff : s.firstFail = none)
    (he : s.settleEnds = true) (haddr : s.addrInRange) {a b c d e f g : TxAnswer}
    (hans : s.AnsweredWith [a, b, c, d, e, f, g]) :
    Host.Core.run Sys2Proof.core 8 s = .next (s.written a b c d e f g) := by
  have hstart : s = s.writing a b c d e f g .wEwen [] 0 s.mem := (hs ▸ midway_nil hcs).symm
  have hewen : step (s.writing a b c d e f g .wEwen [] 0 s.mem) = .next (s.writing a b c d e f g .wOp [a] 1 s.mem) :=
    step_midway_write (calls := []) hf rfl (by decide) (hans 0 a rfl)
      (issueAnswered_midway_of_storesNothing (storesNothing_reqEwen s.cfg.profile))
  have hop : step (s.writing a b c d e f g .wOp [a] 1 s.mem) = .next (s.writing a b c d e f g .wAddr [a, b] 2 s.mem) :=
    step_midway_write (calls := [a]) hf rfl (by decide) (hans 1 b rfl)
      (issueAnswered_midway_of_storesNothing storesNothing_of_open)
  have haddress : step (s.writing a b c d e f g .wAddr [a, b] 2 s.mem) =
      .next (s.writing a b c d e f g .wData [a, b, c] 3 s.mem) :=
    step_midway_write (calls := [a, b]) hf rfl (by decide) (hans 2 c rfl)
      (issueAnswered_midway_of_storesNothing storesNothing_of_open)
  have hdata : step (s.writing a b c d e f g .wData [a, b, c] 3 s.mem) =
      .next (s.writing a b c d e f g .wStrbOn [a, b, c, d] 4 s.mockStored) :=
    step_midway_write (calls := [a, b, c]) hf rfl (by decide) (hans 3 d rfl)
      (issueAnswered_midway_reqData haddr (openFrame_writeLines_three haddr a b c d e f g))
  have hstrobeOn : step (s.writing a b c d e f g .wStrbOn [a, b, c, d] 4 s.mockStored) =
      .next (s.writing a b c d e f g .wSettle [a, b, c, d, e] 5 s.mockStored) :=
    step_midway_write (calls := [a, b, c, d]) hf rfl (by decide) (hans 4 e rfl)
      (issueAnswered_midway_of_storesNothing storesNothing_of_open)
  have hsettle : step (s.writing a b c d e f g .wSettle [a, b, c, d, e] 5 s.mockStored) =
      .next (s.writing a b c d e f g .wStrbOff [a, b, c, d, e] 6 s.mockStored) := step_midway_settle hf he
  have hstrobeOff : step (s.writing a b c d e f g .wStrbOff [a, b, c, d, e] 6 s.mockStored) =
      .next (s.writing a b c d e f g .wEwds [a, b, c, d, e, f] 7 s.mockStored) :=
    step_midway_write (calls := [a, b, c, d, e]) hf rfl (by decide) (hans 5 f rfl)
      (issueAnswered_midway_reqStrobeOff (openFrame_writeLines_six s a b c d e f g))
  have hewds : step (s.writing a b c d e f g .wEwds [a, b, c, d, e, f] 7 s.mockStored) =
      .next (s.written a b c d e f g) :=
    step_midway_ewds (calls := [a, b, c, d, e, f]) hf hff (hans 6 g rfl)
  calc Host.Core.run Sys2Proof.core 8 s
    _ = Host.Core.run Sys2Proof.core 8 (s.writing a b c d e f g .wEwen [] 0 s.mem) := congrArg _ hstart
    _ = Host.Core.run Sys2Proof.core 7 (s.writing a b c d e f g .wOp [a] 1 s.mem) := run_succ hewen 7
    _ = Host.Core.run Sys2Proof.core 6 (s.writing a b c d e f g .wAddr [a, b] 2 s.mem) := run_succ hop 6
    _ = Host.Core.run Sys2Proof.core 5 (s.writing a b c d e f g .wData [a, b, c] 3 s.mem) := run_succ haddress 5
    _ = Host.Core.run Sys2Proof.core 4 (s.writing a b c d e f g .wStrbOn [a, b, c, d] 4 s.mockStored) :=
      run_succ hdata 4
    _ = Host.Core.run Sys2Proof.core 3 (s.writing a b c d e f g .wSettle [a, b, c, d, e] 5 s.mockStored) :=
      run_succ hstrobeOn 3
    _ = Host.Core.run Sys2Proof.core 2 (s.writing a b c d e f g .wStrbOff [a, b, c, d, e] 6 s.mockStored) :=
      run_succ hsettle 2
    _ = Host.Core.run Sys2Proof.core 1 (s.writing a b c d e f g .wEwds [a, b, c, d, e, f] 7 s.mockStored) :=
      run_succ hstrobeOff 1
    _ = .next (s.written a b c d e f g) := run_succ hewds 0

end

/-! ## READ_WORD, from its first request -/

/-- The trace lines of a READ_WORD before its read. -/
def readLines (s : State) (a b c : TxAnswer) : List TraceEntry :=
  [⟨reqReadOp, .status a.status⟩, ⟨reqAddr s.cfg.profile s.addrQ.toNat, .status b.status⟩,
    ⟨reqDummy, .status c.status⟩]

/-- Midway through that READ_WORD, after the first `n` of its lines. -/
abbrev State.reading (s : State) (a b c : TxAnswer) (st : Seq) (calls : List TxAnswer) (n : Nat) : State :=
  s.midway st calls ((readLines s a b c).take n) s.mem

/-- The two bytes that the read brings. -/
def State.readPair (s : State) (a b c d : TxAnswer) : BytePair :=
  pairOf ((s.midway .rData [a, b, c] (readLines s a b c) s.mem).received d 2)

/-- The state after the four steps of a READ_WORD that brings `rx`. -/
def State.read (s : State) (a b c d : TxAnswer) (rx : BytePair) : State :=
  { s.responding [a, b, c, d] (readLines s a b c ++ [⟨reqRead, .read d.status d.nXfer [rx.b0, rx.b1]⟩]) s.mem
      (some (wordAssemble rx)) with rxQ := rx, nxQ := d.nXfer }

section
variable {s : State}

/-- The READ frame that R_DATA continues. -/
theorem openFrame_readLines (haddr : s.addrInRange) (a b c : TxAnswer) :
    openFrame (s.trace ++ readLines s a b c) = encodeRead s.cfg.profile s.addrQ.toNat := by
  rw [← readFrame_wireBits haddr]
  simp [openFrame, readLines, reqReadOp, reqAddr, reqDummy, Request.acs]

/-- The four steps of R125: the requests in order, and one response with the word of the bytes read. -/
theorem run_readSequence (hf : s.fault = []) (hs : s.st = .rOp) (hcs : s.csFramed) (hff : s.firstFail = none)
    {a b c d : TxAnswer} (hans : s.AnsweredWith [a, b, c, d]) :
    Host.Core.run Sys2Proof.core 4 s = .next (s.read a b c d (s.readPair a b c d)) := by
  have hstart : s = s.reading a b c .rOp [] 0 := (hs ▸ midway_nil hcs).symm
  have hop : step (s.reading a b c .rOp [] 0) = .next (s.reading a b c .rAddr [a] 1) :=
    step_midway_write (calls := []) hf rfl (by decide) (hans 0 a rfl)
      (issueAnswered_midway_of_storesNothing storesNothing_of_open)
  have haddress : step (s.reading a b c .rAddr [a] 1) = .next (s.reading a b c .rDummy [a, b] 2) :=
    step_midway_write (calls := [a]) hf rfl (by decide) (hans 1 b rfl)
      (issueAnswered_midway_of_storesNothing storesNothing_of_open)
  have hdummy : step (s.reading a b c .rDummy [a, b] 2) = .next (s.reading a b c .rData [a, b, c] 3) :=
    step_midway_write (calls := [a, b]) hf rfl (by decide) (hans 2 c rfl)
      (issueAnswered_midway_of_storesNothing storesNothing_of_open)
  have hread : step (s.reading a b c .rData [a, b, c] 3) = .next (s.read a b c d (s.readPair a b c d)) :=
    step_midway_read (calls := [a, b, c]) hf hff (hans 3 d rfl) rfl
  calc Host.Core.run Sys2Proof.core 4 s
    _ = Host.Core.run Sys2Proof.core 4 (s.reading a b c .rOp [] 0) := congrArg _ hstart
    _ = Host.Core.run Sys2Proof.core 3 (s.reading a b c .rAddr [a] 1) := run_succ hop 3
    _ = Host.Core.run Sys2Proof.core 2 (s.reading a b c .rDummy [a, b] 2) := run_succ haddress 2
    _ = Host.Core.run Sys2Proof.core 1 (s.reading a b c .rData [a, b, c] 3) := run_succ hdummy 1
    _ = .next (s.read a b c d (s.readPair a b c d)) := run_succ hread 0

end

/-! ## The transactions, from the command presented -/

section
variable {s : State} {addr : BitVec 16} {data : Word} {rest : List (BitVec 33)}

/-- The block that has taken a WRITE_WORD off the port and latched it. -/
def State.beginWrite (s : State) (addr : BitVec 16) (data : Word) (rest : List (BitVec 33)) : State :=
  State.latching .writeWord addr data { s with cmds := rest }

/-- The block that has taken a READ_WORD off the port and latched it. -/
def State.beginRead (s : State) (addr : BitVec 16) (rest : List (BitVec 33)) : State :=
  State.latching .readWord addr 0 { s with cmds := rest }

theorem beginWrite_addrQ (s : State) (addr : BitVec 16) (data : Word) (rest : List (BitVec 33)) :
    (s.beginWrite addr data rest).addrQ.toNat = latched s addr := latched_toNat s addr

theorem beginRead_addrQ (s : State) (addr : BitVec 16) (rest : List (BitVec 33)) :
    (s.beginRead addr rest).addrQ.toNat = latched s addr := latched_toNat s addr

/-- The answers are on the port before the command is taken. -/
theorem answeredWith_beginWrite {answers : List TxAnswer} (h : s.AnsweredWith answers) :
    (s.beginWrite addr data rest).AnsweredWith answers := h

theorem answeredWith_beginRead {answers : List TxAnswer} (h : s.AnsweredWith answers) :
    (s.beginRead addr rest).AnsweredWith answers := h

/-- The whole of WRITE_WORD: acceptance, and the eight steps after it. -/
theorem run_writeWord (hp : Presents s (encodeHost 0 addr data) rest) (hacc : Accepts s addr)
    (he : s.settleEnds = true) {a b c d e f g : TxAnswer} (hans : s.AnsweredWith [a, b, c, d, e, f, g]) :
    Host.Core.run Sys2Proof.core 9 s = .next ((s.beginWrite addr data rest).written a b c d e f g) := by
  obtain ⟨hs, hf, hcs, hc⟩ := hp
  have haddr : (s.beginWrite addr data rest).addrInRange :=
    (beginWrite_addrQ s addr data rest).trans_lt (latched_lt s addr)
  have haccept : step s = .next (s.beginWrite addr data rest) := step_accepts hs hf hc hacc
  exact (run_succ haccept 8).trans
    (run_writeSequence (s := s.beginWrite addr data rest) hf rfl hcs rfl he haddr (answeredWith_beginWrite hans))

/-- The whole of READ_WORD: acceptance, and the four steps after it. -/
theorem run_readWord (hp : Presents s (encodeHost 1 addr data) rest) (hacc : Accepts s addr)
    {a b c d : TxAnswer} (hans : s.AnsweredWith [a, b, c, d]) :
    Host.Core.run Sys2Proof.core 5 s =
      .next ((s.beginRead addr rest).read a b c d ((s.beginRead addr rest).readPair a b c d)) := by
  obtain ⟨hs, hf, hcs, hc⟩ := hp
  have haccept : step s = .next (s.beginRead addr rest) := step_accepts hs hf hc hacc
  exact (run_succ haccept 4).trans
    (run_readSequence (s := s.beginRead addr rest) hf rfl hcs rfl (answeredWith_beginRead hans))

end

/-- Settles O51: the run of WRITE_WORD over the seven answers on the port. -/
theorem writeWordTransaction : Obligations.WriteWordTransaction := by
  intro s addr data rest a b c d e f g more hp hacc he htx
  have ⟨_, hf, _, _⟩ := hp
  refine ⟨_, run_writeWord hp hacc he (answeredWith_of_txIn htx), rfl, hf, rfl, rfl, ?_, rfl, rfl, ?_⟩
  · show s.txIn.drop 7 = more
    rw [htx]
    rfl
  · show s.trace ++ writeLines (s.beginWrite addr data rest) a b c d e f g = _
    rw [writeLines, beginWrite_addrQ]
    rfl

theorem wordAssemble_eq_ofNat (p : BytePair) : wordAssemble p = BitVec.ofNat 16 (256 * p.b1.toNat + p.b0.toNat) := by
  rw [← wordAssemble_toNat, BitVec.ofNat_toNat, BitVec.setWidth_eq]

/-- Settles O52: the run of READ_WORD over the four answers on the port; the bytes the last one lists are received. -/
theorem readWordTransaction : Obligations.ReadWordTransaction := by
  intro s addr ignored rest a b c d more hp hacc htx
  have ⟨_, hf, _, _⟩ := hp
  refine ⟨_, run_readWord hp hacc (answeredWith_of_txIn htx), rfl, hf, rfl, rfl, ?_, rfl, rfl,
    fun b0 b1 beyond hrx => ?_, ?_, ?_⟩
  · show s.txIn.drop 4 = more
    rw [htx]
    rfl
  · show State.readPair _ a b c d = _
    rw [State.readPair, received_of_listed _ (by simp [hrx]), hrx]
    rfl
  · rw [← wordAssemble_eq_ofNat]
    rfl
  · show s.trace ++ (readLines (s.beginRead addr rest) a b c ++ [_]) = _
    rw [readLines, beginRead_addrQ]
    rfl

end Sys2Proof.Machine
end

section
/-! What the transactions bring about: their frames on the wire (30_encoding.md R76 to R80), the word a device returns
(20_memory.md R50, R59; 70_reset_and_hazards.md R170), and their end (R169). -/

namespace Sys2Proof.Machine

open Sys2Proof.Statements

/-! ## The frames on the wire (R76, R78 to R80, R103) -/

@[simp] theorem reqEwen_acs (p : Profile) : (reqEwen p).acs = true := rfl
@[simp] theorem reqEwds_acs (p : Profile) : (reqEwds p).acs = true := rfl
@[simp] theorem reqWriteOp_acs : reqWriteOp.acs = true := rfl
@[simp] theorem reqReadOp_acs : reqReadOp.acs = true := rfl
@[simp] theorem reqAddr_acs (p : Profile) (a : Nat) : (reqAddr p a).acs = false := rfl
@[simp] theorem reqData_acs (d : Word) : (reqData d).acs = false := rfl
@[simp] theorem reqDummy_acs : reqDummy.acs = false := rfl
@[simp] theorem reqStrobeOn_acs : reqStrobeOn.acs = true := rfl
@[simp] theorem reqStrobeOff_acs : reqStrobeOff.acs = false := rfl
@[simp] theorem reqRead_acs : reqRead.acs = false := rfl
@[simp] theorem delay_acs (t : Nat) : (Request.delay t).acs = false := rfl
@[simp] theorem reqStrobeOn_wireBits : reqStrobeOn.wireBits = [] := rfl
@[simp] theorem reqStrobeOff_wireBits : reqStrobeOff.wireBits = [] := rfl
@[simp] theorem reqRead_wireBits : reqRead.wireBits = [] := rfl
@[simp] theorem delay_wireBits (t : Nat) : (Request.delay t).wireBits = [] := rfl

/-- Cutting a trace into frames loses no bit. -/
theorem wireBits_eq_flatten_cutFrames (trace : List TraceEntry) :
    wireBits trace = (cutFrames trace).1 ++ (cutFrames trace).2.flatten := by
  induction trace with
  | nil => rfl
  | cons e rest ih =>
    have hcons : wireBits (e :: rest) = e.req.wireBits ++ wireBits rest := rfl
    rw [hcons, ih, cutFrames]
    split <;> simp

theorem encodeEwen_length (p : Profile) : (encodeEwen p).length = p.cmdBits := by cases p <;> rfl

theorem encodeEwds_length (p : Profile) : (encodeEwds p).length = p.cmdBits := by cases p <;> rfl

theorem encodeWrite_length (p : Profile) (a : Nat) (d : Word) : (encodeWrite p a d).length = p.cmdBits + 16 := by
  simp [encodeWrite, Profile.cmdBits]

theorem encodeRead_length (p : Profile) (a : Nat) : (encodeRead p a).length = p.cmdBits + 1 := by
  simp [encodeRead, Profile.cmdBits]

section
variable {s : State}

theorem cutFrames_writeLines (haddr : s.addrInRange) (a b c d e f g : TxAnswer) :
    cutFrames (writeLines s a b c d e f g) = ([], [encodeEwen s.cfg.profile,
      encodeWrite s.cfg.profile s.addrQ.toNat s.dataQ, [], encodeEwds s.cfg.profile]) := by
  rw [← writeFrame_wireBits haddr, ← reqEwen_wireBits_eq_encodeEwen, ← reqEwds_wireBits_eq_encodeEwds]
  simp [cutFrames, writeLines]

theorem cutFrames_readLines (haddr : s.addrInRange) (a b c : TxAnswer) (reply : Reply) :
    cutFrames (readLines s a b c ++ [⟨reqRead, reply⟩]) = ([], [encodeRead s.cfg.profile s.addrQ.toNat]) := by
  rw [← readFrame_wireBits haddr]
  simp [cutFrames, readLines]

theorem wireBits_writeLines_length (haddr : s.addrInRange) (a b c d e f g : TxAnswer) :
    (wireBits (writeLines s a b c d e f g)).length = 3 * s.cfg.profile.cmdBits + 16 := by
  rw [wireBits_eq_flatten_cutFrames, cutFrames_writeLines haddr]
  simp only [List.nil_append, List.flatten_cons, List.flatten_nil, List.length_append, List.length_nil,
    encodeEwen_length, encodeWrite_length, encodeEwds_length]
  omega

theorem wireBits_readLines_length (haddr : s.addrInRange) (a b c : TxAnswer) (reply : Reply) :
    (wireBits (readLines s a b c ++ [⟨reqRead, reply⟩])).length = s.cfg.profile.cmdBits + 1 := by
  rw [wireBits_eq_flatten_cutFrames, cutFrames_readLines haddr]
  simp [encodeRead_length]

theorem bitsIn_readLines (s : State) (a b c : TxAnswer) (status : Status) (nXfer : Nat) (rx : List Byte) :
    (readLines s a b c ++ [(⟨reqRead, .read status nXfer rx⟩ : TraceEntry)]).flatMap (fun e => e.reply.bitsIn) =
      bufferBits rx := by
  simp [readLines, Reply.bitsIn]

end

/-- Settles O53: the trace of each run is cut where its requests assert CS, and the bits are those of the frames. -/
theorem transactionsPutTheirFramesOnTheWire : Obligations.TransactionsPutTheirFramesOnTheWire := by
  intro s addr data rest hfair hacc
  obtain ⟨htransport, hends⟩ := hfair
  obtain ⟨ans, hans⟩ := exists_answeredWith htransport
  refine ⟨fun hp => ?_, fun hp => ?_⟩
  · have haddr : (s.beginWrite addr data rest).addrInRange :=
      (beginWrite_addrQ s addr data rest).trans_lt (latched_lt s addr)
    have hcut := cutFrames_writeLines haddr (ans 0) (ans 1) (ans 2) (ans 3) (ans 4) (ans 5) (ans 6)
    rw [beginWrite_addrQ] at hcut
    exact ⟨_, _, run_writeWord hp hacc hends (hans 7), rfl, hcut, wireBits_writeLines_length haddr .., rfl⟩
  · have haddr : (s.beginRead addr rest).addrInRange := (beginRead_addrQ s addr rest).trans_lt (latched_lt s addr)
    have hrun := run_readWord hp hacc (hans 4)
    generalize (s.beginRead addr rest).readPair (ans 0) (ans 1) (ans 2) (ans 3) = rx at hrun
    have hcut := cutFrames_readLines haddr (ans 0) (ans 1) (ans 2)
      (.read (ans 3).status (ans 3).nXfer [rx.b0, rx.b1])
    rw [beginRead_addrQ] at hcut
    refine ⟨_, _, hrun, rfl, hcut, wireBits_readLines_length haddr .., ?_⟩
    rw [bitsIn_readLines, bufferBits_length]
    rfl

/-! ## The end of a transaction (R23, R169) -/

/-- How many steps a sequencer state has before it in its transaction (R134). -/
def Seq.stepsLeft : Seq → Nat
  | .idle => 0
  | .wEwen => 8
  | .wOp => 7
  | .wAddr => 6
  | .wData => 5
  | .wStrbOn => 4
  | .wSettle => 3
  | .wStrbOff => 2
  | .wEwds => 1
  | .rOp => 4
  | .rAddr => 3
  | .rDummy => 2
  | .rData => 1

theorem stepsLeft_le (st : Seq) : st.stepsLeft ≤ 8 := by cases st <;> decide

theorem stepsLeft_eq_zero_iff {st : Seq} : st.stepsLeft = 0 ↔ st = .idle := by cases st <;> decide

theorem stepsLeft_next (st : Seq) : st.next.stepsLeft = st.stepsLeft - 1 := by cases st <;> rfl

theorem request?_isSome {s : State} (hi : s.st ≠ .idle) : s.request?.isSome := by
  unfold State.request?
  cases hs : s.st <;> simp_all

/-- A step of a framed busy block that nothing keeps waiting: the next state, framed, with a response if it is IDLE. -/
theorem step_fair {s : State} (hfair : Fair s) (hf : s.fault = []) (hcs : s.csFramed) (hi : s.st ≠ .idle) :
    ∃ t, step s = .next t ∧ Fair t ∧ t.fault = [] ∧ t.csFramed ∧ t.st = s.st.next ∧ t.cmds = s.cmds ∧
      t.responses.length = s.responses.length + if s.st.next = .idle then 1 else 0 := by
  obtain ⟨htransport, hends⟩ := hfair
  obtain ⟨req, hreq⟩ := Option.isSome_iff_exists.mp (request?_isSome hi)
  obtain ⟨t, ht, hprogress⟩ := step_progress_of_request hf hcs (answer?_isSome htransport) hends hreq
  obtain ⟨hst, hcsAfter, hfault, -, hresponses, hcmds⟩ := Progress.mk.inj hprogress
  have hsurroundings := step_surroundings ht
  simp only [Prod.mk.injEq] at hsurroundings
  obtain ⟨htr, hse, -, -⟩ := hsurroundings
  have hst' : t.st = s.st.next := hst
  refine ⟨t, ht, ⟨htr ▸ htransport, hse ▸ hends⟩, hfault.trans hf, ?_, hst', hcmds, ?_⟩
  · rw [State.csFramed, hst', ← csAfter_request hreq hcs]
    exact hcsAfter
  · rw [hresponses]
    by_cases hidle : s.st.next = .idle <;> simp [State.progress, hidle]

/-- From any state of a transaction, its steps lead to its end. -/
theorem run_fair (n : Nat) {s : State} (hn : s.st.stepsLeft = n) (hfair : Fair s) (hf : s.fault = [])
    (hcs : s.csFramed) :
    ∃ t : State, Host.Core.run Sys2Proof.core n s = .next t ∧ t.st = .idle ∧ t.fault = [] ∧ t.cs = .deasserted ∧
      t.responses.length = s.responses.length + (if s.st = .idle then 0 else 1) ∧ t.cmds = s.cmds := by
  induction n generalizing s with
  | zero =>
    have hs := stepsLeft_eq_zero_iff.mp hn
    exact ⟨s, rfl, hs, hf, by rw [hcs, hs, Seq.csOnEntry], by rw [if_pos hs]; rfl, rfl⟩
  | succ n ih =>
    have hi : s.st ≠ .idle := fun hs => by simp [hs, Seq.stepsLeft] at hn
    obtain ⟨u, hu, hfair', hf', hcs', hst, hcmds, hresponses⟩ := step_fair hfair hf hcs hi
    have hn' : u.st.stepsLeft = n := by rw [hst, stepsLeft_next, hn, Nat.add_sub_cancel]
    obtain ⟨t, ht, htst, htf, htcs, htresponses, htcmds⟩ := ih hn' hfair' hf' hcs'
    refine ⟨t, (run_succ (M := Sys2Proof.core) hu n).trans ht, htst, htf, htcs, ?_, htcmds.trans hcmds⟩
    rw [htresponses, hresponses, hst, if_neg hi]
    split <;> rfl

/-- Settles O56: the steps left are at most eight. -/
theorem fairTransactionsComplete : Obligations.FairTransactionsComplete := by
  intro s hfair hf hcs hi
  obtain ⟨t, ht, hst, hfault, hcsAfter, hresponses, hcmds⟩ := run_fair _ rfl hfair hf hcs
  exact ⟨_, t, stepsLeft_le s.st, ht, hst, hfault, hcsAfter, by rw [hresponses, if_neg hi], hcmds⟩

end Sys2Proof.Machine
end

section
/-! The word a device returns (20_memory.md R50, R59; 95_test_vectors.md D15; 70_reset_and_hazards.md R170): what a
WRITE_WORD leaves in the store, what a READ_WORD after it brings, and what the host may trust of it. -/

namespace Sys2Proof.Machine

open Sys2Proof.Statements

/-! ## What a WRITE_WORD leaves -/

section
variable {s : State} {a b c d e f g : TxAnswer}

/-- The mock keeps the word, whatever its calls were answered (D15). -/
theorem written_mem_of_loopback (ht : s.transport = .loopback) :
    (s.written a b c d e f g).mem = memWriteWord s.mem s.addrQ.toNat (wordSplit s.dataQ) := by
  have hkept : (s.written a b c d e f g).mem = s.mockStored :=
    congrArg State.mem (settleWrite_eq (s := s.midway ..) (by rw [midway_transport, ht]; decide))
  rw [hkept, State.mockStored, if_pos ht]

/-- The device of R59 keeps the word under R59's conditions 1 and 2 and R162's, and otherwise holds nothing. -/
theorem written_mem_of_device (ht : s.transport = .device) (hff : s.firstFail = none) :
    (s.written a b c d e f g).mem =
      if firstFailureOf ([a, b, c, d, e, f, g].map (·.status)) = .success ∧ s.writeCycle ≤ s.cfg.tSettle ∧
          s.cfg.profile = s.deviceProfile
        then memWriteWord s.mem s.addrQ.toNat (wordSplit s.dataQ) else [] := by
  have hm : s.mockStored = s.mem := if_neg (by rw [ht]; decide)
  have hvisible :
      (s.midway .wEwds [a, b, c, d, e, f, g] (writeLines s a b c d e f g) s.mockStored).writeVisible = true ↔
      firstFailureOf ([a, b, c, d, e, f, g].map (·.status)) = .success ∧ s.writeCycle ≤ s.cfg.tSettle ∧
        s.cfg.profile = s.deviceProfile := by
    rw [writeVisible_iff, midway_firstFail, hff, failureAfter_none_eq_none_iff, and_rotate]
    rfl
  rw [← if_congr hvisible rfl rfl, ← hm]
  exact (settleWrite_mem (s.midway ..)).trans (if_pos ht)

end

/-! ## What a READ_WORD brings -/

section
variable {s : State} {a b c d : TxAnswer}

/-- The mock gives the stored word to a full read. -/
theorem readPair_of_loopback (ht : s.transport = .loopback) (haddr : s.addrInRange) (hrx : d.rx = [])
    (hfull : fullRead d 2 = true) {w : Word} (hw : memReadWord s.mem s.addrQ.toNat = some w) :
    s.readPair a b c d = wordSplit w :=
  pairOf_received_of_stored (s := s.midway ..) hrx (.inl ⟨ht, hfull⟩) haddr (openFrame_readLines haddr a b c) hw

/-- Condition 3 of R59, that the read is not short, and R162. -/
theorem readVisible_reading_iff (hff : s.firstFail = none) :
    (s.midway .rData [a, b, c] (readLines s a b c) s.mem).readVisible d 2 = true ↔
      firstFailureOf ([a, b, c, d].map (·.status)) = .success ∧ 2 ≤ d.nXfer ∧ s.cfg.profile = s.deviceProfile := by
  have hfail : failureAfter none [a, b, c] = none ↔
      a.status = .success ∧ b.status = .success ∧ c.status = .success := by
    simp [failureAfter_none_eq_none_iff, firstFailureOf_eq_success]
  have hall : firstFailureOf ([a, b, c, d].map (·.status)) = .success ↔
      (a.status = .success ∧ b.status = .success ∧ c.status = .success) ∧ d.status = .success := by
    simp [firstFailureOf_eq_success, and_assoc]
  rw [State.readVisible, fullRead, Bool.and_eq_true, Bool.and_eq_true, Bool.and_eq_true, decide_eq_true_eq,
    decide_eq_true_eq, decide_eq_true_eq, midway_firstFail, hff, hfail, hall, State.profileMatches, decide_eq_true_eq,
    midway_cfg]
  show (s.cfg.profile = s.deviceProfile ∧ _) ∧ _ ↔ _
  tauto

/-- The device of R59 gives the stored word to a visible read. -/
theorem readPair_of_device (ht : s.transport = .device) (hff : s.firstFail = none) (haddr : s.addrInRange)
    (hrx : d.rx = []) (hall : firstFailureOf ([a, b, c, d].map (·.status)) = .success) (hn : 2 ≤ d.nXfer)
    (hp : s.cfg.profile = s.deviceProfile) {w : Word} (hw : memReadWord s.mem s.addrQ.toNat = some w) :
    s.readPair a b c d = wordSplit w :=
  pairOf_received_of_stored (s := s.midway ..) hrx (.inr ⟨ht, (readVisible_reading_iff hff).mpr ⟨hall, hn, hp⟩⟩) haddr
    (openFrame_readLines haddr a b c) hw

theorem frameByte_nil (p : Profile) (trace : List TraceEntry) (k : Nat) : frameByte p trace [] k = none := by
  unfold frameByte
  split
  · split
    · exact ite_self _
    · rfl
  · rfl

/-- To any other read, and of an empty store, it gives nothing. -/
theorem readPair_of_device_draws (ht : s.transport = .device) (hff : s.firstFail = none) (hrx : d.rx = [])
    (h : s.mem = [] ∨ ¬ (firstFailureOf ([a, b, c, d].map (·.status)) = .success ∧ 2 ≤ d.nXfer ∧
      s.cfg.profile = s.deviceProfile)) :
    s.readPair a b c d = ⟨Config.rxByte (s.draws + 3) 0, Config.rxByte (s.draws + 3) 1⟩ := by
  refine pairOf_received_of_draws (s := s.midway ..) hrx fun k => ?_
  simp only [State.deviceByte?, midway_transport, ht, readVisible_reading_iff hff, midway_mem]
  obtain h | h := h
  · rw [h, frameByte_nil, ite_self]
  · exact if_neg h

end

/-! ## WRITE_WORD, then READ_WORD at the same address -/

section
variable {s : State} {addr : BitVec 16} {data ignored : Word} {rest : List (BitVec 33)}
  {a b c d e f g h i j k : TxAnswer}

theorem run_add {M : Host.Core} {s t : M.State} {m : Nat} (hm : M.run m s = .next t) (n : Nat) :
    M.run (m + n) s = M.run n t := by
  induction m generalizing s with
  | zero => rw [Nat.zero_add, Host.Outcome.next.inj hm]
  | succ m ih =>
    rw [Host.Core.run] at hm
    split at hm
    · next u hu => rw [Nat.succ_add, run_succ hu, ih hm]
    · nomatch hm
    · nomatch hm

/-- The block once the WRITE_WORD is done, the READ_WORD next on the port. -/
def State.afterWrite (s : State) (addr : BitVec 16) (data ignored : Word) (rest : List (BitVec 33))
    (a b c d e f g : TxAnswer) : State :=
  (s.beginWrite addr data (encodeHost 1 addr ignored :: rest)).written a b c d e f g

theorem afterWrite_mem_of_loopback (ht : s.transport = .loopback) :
    (s.afterWrite addr data ignored rest a b c d e f g).mem = memWriteWord s.mem (latched s addr) (wordSplit data) := by
  rw [← beginWrite_addrQ s addr data (encodeHost 1 addr ignored :: rest)]
  exact written_mem_of_loopback (s := s.beginWrite ..) ht

theorem afterWrite_mem_of_device (ht : s.transport = .device) :
    (s.afterWrite addr data ignored rest a b c d e f g).mem =
      if firstFailureOf ([a, b, c, d, e, f, g].map (·.status)) = .success ∧ s.writeCycle ≤ s.cfg.tSettle ∧
          s.cfg.profile = s.deviceProfile
        then memWriteWord s.mem (latched s addr) (wordSplit data) else [] := by
  rw [← beginWrite_addrQ s addr data (encodeHost 1 addr ignored :: rest)]
  exact written_mem_of_device (s := s.beginWrite ..) ht rfl

/-- A kept WRITE_WORD leaves its word under its address. -/
theorem memReadWord_afterWrite
    (h : (s.afterWrite addr data ignored rest a b c d e f g).mem =
      memWriteWord s.mem (latched s addr) (wordSplit data)) :
    memReadWord (s.afterWrite addr data ignored rest a b c d e f g).mem (latched s addr) = some data := by
  rw [h, memReadWord_memWriteWord]

/-- The block that has taken the READ_WORD after the WRITE_WORD. -/
def State.rereading (s : State) (addr : BitVec 16) (data ignored : Word) (rest : List (BitVec 33))
    (a b c d e f g : TxAnswer) : State :=
  (s.afterWrite addr data ignored rest a b c d e f g).beginRead addr rest

theorem rereading_addrQ : (s.rereading addr data ignored rest a b c d e f g).addrQ.toNat = latched s addr :=
  beginRead_addrQ (s.afterWrite addr data ignored rest a b c d e f g) addr rest

theorem rereading_addrInRange : (s.rereading addr data ignored rest a b c d e f g).addrInRange :=
  rereading_addrQ.trans_lt (latched_lt s addr)

/-- It is the word under the address that is read. -/
theorem memReadWord_rereading
    (h : (s.afterWrite addr data ignored rest a b c d e f g).mem =
      memWriteWord s.mem (latched s addr) (wordSplit data)) :
    memReadWord (s.rereading addr data ignored rest a b c d e f g).mem
      (s.rereading addr data ignored rest a b c d e f g).addrQ.toNat = some data := by
  rw [rereading_addrQ]
  exact memReadWord_afterWrite h

/-- The fourteen steps of both. -/
theorem run_writeWord_readWord (hp : Presents s (encodeHost 0 addr data) (encodeHost 1 addr ignored :: rest))
    (hacc : Accepts s addr) (he : s.settleEnds = true) (hw : s.AnsweredWith [a, b, c, d, e, f, g])
    (hr : (s.afterWrite addr data ignored rest a b c d e f g).AnsweredWith [h, i, j, k]) {rx : BytePair}
    (hrx : (s.rereading addr data ignored rest a b c d e f g).readPair h i j k = rx) :
    Host.Core.run Sys2Proof.core 14 s =
      .next ((s.rereading addr data ignored rest a b c d e f g).read h i j k rx) := by
  subst hrx
  have hwrite := run_writeWord hp hacc he hw
  obtain ⟨-, hf, -, -⟩ := hp
  have hp' : Presents (s.afterWrite addr data ignored rest a b c d e f g) (encodeHost 1 addr ignored) rest :=
    ⟨rfl, hf, rfl, rfl⟩
  exact (run_add (M := Sys2Proof.core) hwrite 5).trans (run_readWord hp' hacc hr)

/-- Over the mock, a full read whose answer lists no bytes brings the word just written. -/
theorem run_writeWord_readWord_of_loopback (ht : s.transport = .loopback)
    (hp : Presents s (encodeHost 0 addr data) (encodeHost 1 addr ignored :: rest)) (hacc : Accepts s addr)
    (he : s.settleEnds = true) (hw : s.AnsweredWith [a, b, c, d, e, f, g])
    (hr : (s.afterWrite addr data ignored rest a b c d e f g).AnsweredWith [h, i, j, k]) (hrx : k.rx = [])
    (hfull : fullRead k 2 = true) :
    Host.Core.run Sys2Proof.core 14 s =
      .next ((s.rereading addr data ignored rest a b c d e f g).read h i j k (wordSplit data)) :=
  run_writeWord_readWord hp hacc he hw hr (readPair_of_loopback (s := s.rereading ..) ht rereading_addrInRange hrx hfull
    (memReadWord_rereading (afterWrite_mem_of_loopback ht)))

/-- The two responses of the two transactions. -/
theorem responses_read_rereading (rx : BytePair) :
    ((s.rereading addr data ignored rest a b c d e f g).read h i j k rx).responses = s.responses ++ [
      ⟨transactionStatus s.cfg.statusPolicy ([a, b, c, d, e, f, g].map (·.status)), none⟩,
      ⟨transactionStatus s.cfg.statusPolicy ([h, i, j, k].map (·.status)), some (wordAssemble rx)⟩] :=
  List.append_assoc ..

end

theorem transactionStatus_of_success {l : List Status} (h : firstFailureOf l = .success) (policy : StatusPolicy) :
    transactionStatus policy l = .success := by
  cases policy with
  | firstFailure => exact h
  | last =>
    obtain rfl | ⟨init, last, rfl⟩ := List.eq_nil_or_concat l
    · rfl
    · have hlast : last = .success := firstFailureOf_eq_success.mp h last (by simp)
      simp [transactionStatus, hlast]

theorem firstFailureOf_append_eq_success {l₁ l₂ : List Status} :
    firstFailureOf (l₁ ++ l₂) = .success ↔ firstFailureOf l₁ = .success ∧ firstFailureOf l₂ = .success := by
  simp only [firstFailureOf_eq_success, List.forall_mem_append]

/-- Every call of both transactions returned SUCCESS. -/
theorem everyCall_success_iff {a b c d e f g h i j k : TxAnswer} :
    firstFailureOf ([a, b, c, d, e, f, g, h, i, j, k].map (·.status)) = .success ↔
      firstFailureOf ([a, b, c, d, e, f, g].map (·.status)) = .success ∧
        firstFailureOf ([h, i, j, k].map (·.status)) = .success :=
  firstFailureOf_append_eq_success (l₁ := [a, b, c, d, e, f, g].map (·.status))

/-- What the host trusts is the Word of a response with SUCCESS. -/
theorem trusted?_eq_some_iff {r : Response} {x : Word} :
    r.trusted? = some x ↔ r.status = .success ∧ r.data = some x := by
  unfold Response.trusted?
  split <;> simp [*]

theorem fullRead_mockAnswer (s : State) (k : Nat) : fullRead (mockAnswer s k) 2 = true := by
  simp [fullRead, mockAnswer]

/-- Settles O54: the mock answers every call with SUCCESS, keeps the written word and gives it to the full read. -/
theorem loopbackRoundTrip : Obligations.LoopbackRoundTrip := by
  intro s addr data ignored rest hp ht htx he hacc
  have hw := answeredWith_mock ht htx 7
  have hr (a b c d e f g : TxAnswer) :=
    answeredWith_mock (s := s.afterWrite addr data ignored rest a b c d e f g) ht
      (by show s.txIn.drop 7 = []; rw [htx]; rfl) 4
  have hrun := run_writeWord_readWord_of_loopback ht hp hacc he hw (hr _ _ _ _ _ _ _) rfl (fullRead_mockAnswer _ 3)
  obtain ⟨-, hf, -, -⟩ := hp
  have hword : wordAssemble (wordSplit data) = data := wordAssemble_wordSplit data
  refine ⟨_, hrun, rfl, hf, rfl, rfl, ?_, ?_⟩
  · rw [responses_read_rereading, hword, transactionStatus_of_success (by simp [firstFailureOf, mockAnswer]),
      transactionStatus_of_success (by simp [firstFailureOf, mockAnswer])]
  · exact memReadWord_afterWrite (afterWrite_mem_of_loopback ht)

/-- Settles O55: the word is there if the write was visible, and given if the read is; else both bytes are drawn. -/
theorem visibleWriteIsReadBack : Obligations.VisibleWriteIsReadBack := by
  intro s addr data ignored rest a b c d e f g h i j k more hp hacc ht he htx hrx
  have hw : s.AnsweredWith [a, b, c, d, e, f, g] :=
    answeredWith_of_txIn (more := [h, i, j, k] ++ more) (by rw [htx]; rfl)
  have hr : (s.afterWrite addr data ignored rest a b c d e f g).AnsweredWith [h, i, j, k] :=
    answeredWith_of_txIn (more := more) (by show s.txIn.drop 7 = _; rw [htx]; rfl)
  have hmem : (s.afterWrite addr data ignored rest a b c d e f g).mem = _ := afterWrite_mem_of_device ht
  have hrun := run_writeWord_readWord hp hacc he hw hr rfl
  obtain ⟨-, hf, -, -⟩ := hp
  refine ⟨_, _, hrun, rfl, hf, responses_read_rereading _, fun ⟨hsuccess, hsettle, hn, hp⟩ => ?_, fun hfails => ?_⟩
  · obtain ⟨hwrite, hread⟩ := everyCall_success_iff.mp hsuccess
    have hstored := memReadWord_rereading (hmem.trans (if_pos ⟨hwrite, hsettle, hp⟩))
    rw [readPair_of_device (s := s.rereading ..) ht rfl rereading_addrInRange hrx hread hn hp hstored]
    exact wordAssemble_wordSplit data
  · refine congrArg wordAssemble (readPair_of_device_draws (s := s.rereading ..) ht rfl hrx ?_)
    by_cases hvisible : firstFailureOf ([a, b, c, d, e, f, g].map (·.status)) = .success ∧
        s.writeCycle ≤ s.cfg.tSettle ∧ s.cfg.profile = s.deviceProfile
    · obtain ⟨hwrite, hsettle, hp⟩ := hvisible
      refine .inr fun ⟨hread, hn, _⟩ => ?_
      obtain h | h | h | h := hfails
      · exact h (everyCall_success_iff.mpr ⟨hwrite, hread⟩)
      · exact Nat.not_lt.mpr hsettle h
      · exact Nat.not_lt.mpr hn h
      · exact h hp
    · exact .inl (hmem.trans (if_neg hvisible))

/-- Settles O59: the host trusts the word of `VisibleWriteIsReadBack` when the status is SUCCESS, which under
FIRST_FAILURE says that every call of the read returned it. -/
theorem trustedReadIsTheWrittenWord : Obligations.TrustedReadIsTheWrittenWord := by
  intro s addr data ignored rest a b c d e f g h i j k more hp hacc ht he htx hrx
  obtain ⟨t, w, hrun, -, -, hresponses, hword, hdraws⟩ :=
    visibleWriteIsReadBack s addr data ignored rest a b c d e f g h i j k more hp hacc ht he htx hrx
  refine ⟨t, _, _, hrun, hresponses, Response.trusted?_none _, rfl, Response.trusted?_of_ne,
    fun hsuccess hs hn hm => ?_, fun hpolicy hwrite hs hn hm x hx => ?_, fun hpolicy hk hfails => ?_, fun hsuccess hcase => ?_⟩
  · obtain ⟨-, hread⟩ := everyCall_success_iff.mp hsuccess
    exact trusted?_eq_some_iff.mpr ⟨transactionStatus_of_success hread _, congrArg some (hword ⟨hsuccess, hs, hn, hm⟩)⟩
  · obtain ⟨hstatus, hdata⟩ := trusted?_eq_some_iff.mp hx
    obtain rfl : w = x := Option.some.inj hdata
    rw [hpolicy] at hstatus
    exact hword ⟨everyCall_success_iff.mpr ⟨hwrite, hstatus⟩, hs, hn, hm⟩
  · have hfails' : firstFailureOf ([a, b, c, d, e, f, g, h, i, j, k].map (·.status)) ≠ .success := fun hsuccess =>
      have ⟨hearlier, _⟩ :=
        (firstFailureOf_append_eq_success (l₁ := List.map TxAnswer.status [a, b, c, d, e, f, g, h, i, j])).mp hsuccess
      hfails hearlier
    refine trusted?_eq_some_iff.mpr ⟨?_, congrArg some (hdraws (.inl hfails'))⟩
    rw [hpolicy]
    exact hk
  · exact trusted?_eq_some_iff.mpr ⟨hsuccess, congrArg some (hdraws (.inr (.inr hcase)))⟩

end Sys2Proof.Machine
end

section
/-! No state crosses transactions (10_state.md R35): two blocks that agree on what the statement names, and on the
latched registers only while a transaction runs, go on alike. -/

namespace Sys2Proof.Machine

open Sys2Proof.Statements

/-! ## Growing alike -/

/-- Two lists have grown by the same items. -/
def Grown {α : Type} (x₀ y₀ x y : List α) : Prop := ∃ l, x = x₀ ++ l ∧ y = y₀ ++ l

section
variable {α : Type} {x₀ y₀ x y : List α}

theorem Grown.refl (x y : List α) : Grown x y x y := ⟨[], (List.append_nil x).symm, (List.append_nil y).symm⟩

theorem Grown.append (h : Grown x₀ y₀ x y) (m : List α) : Grown x₀ y₀ (x ++ m) (y ++ m) := by
  obtain ⟨l, rfl, rfl⟩ := h
  exact ⟨l ++ m, List.append_assoc .., List.append_assoc ..⟩

theorem Grown.drop_eq (h : Grown x₀ y₀ x y) : x.drop x₀.length = y.drop y₀.length := by
  obtain ⟨l, rfl, rfl⟩ := h
  rw [List.drop_left, List.drop_left]

end

/-! ## The simulation relation -/

/-- `s` and `u`, begun as `s₀` and `u₀`, are alike: the same in everything but the registers a transaction sets before
it reads them (the operand registers and `first_fail` at acceptance, the open frame at its CS assertion, the others at
an answer), and grown by the same responses and trace lines. -/
structure Alike (s₀ u₀ s u : State) : Prop where
  cfg : s.cfg = u.cfg
  st : s.st = u.st
  cs : s.cs = u.cs
  fault : s.fault = u.fault
  cmds : s.cmds = u.cmds
  txIn : s.txIn = u.txIn
  transport : s.transport = u.transport
  settleEnds : s.settleEnds = u.settleEnds
  mem : s.mem = u.mem
  writeCycle : s.writeCycle = u.writeCycle
  deviceProfile : s.deviceProfile = u.deviceProfile
  draws : s.draws = u.draws
  addrQ : s.st ≠ .idle → s.addrQ = u.addrQ
  firstFail : s.st ≠ .idle → s.firstFail = u.firstFail
  dataQ : s.st.op? = some .writeWord → s.dataQ = u.dataQ
  openFrame : s.cs = .asserted → openFrame s.trace = openFrame u.trace
  responses : Grown s₀.responses u₀.responses s.responses u.responses
  trace : Grown s₀.trace u₀.trace s.trace u.trace

theorem Seq.not_idle_of_next {st : Seq} (h : st.next ≠ .idle) : st ≠ .idle := by
  rintro rfl
  exact h rfl

theorem Seq.op?_of_next {st : Seq} {op : HostOp} (h : st.next.op? = some op) : st.op? = some op := by
  cases st <;> simp_all [Seq.next, Seq.op?]

/-- Only WRITE_WORD starts the WRITE_WORD sequence (R112). -/
theorem HostOp.eq_writeWord_of_firstState {op : HostOp} (h : op.firstState.op? = some .writeWord) :
    op = .writeWord := by
  cases op with
  | writeWord => rfl
  | readWord => cases h

/-- A call that passes its check is inside a frame or opens one. -/
theorem acs_or_asserted {req : Request} {cs : CsView} (hcall : req.isCall = true) (hc : csCheck req cs = none) :
    req.acs = true ∨ cs = .asserted := by
  cases cs with
  | asserted => exact .inr rfl
  | deasserted =>
    cases req with
    | write u n b acs dcs => cases acs with
      | true => exact .inl rfl
      | false => cases hc
    | read => cases hc
    | delay => cases hcall

theorem openFrame_append_congr {x y : List TraceEntry} {line : TraceEntry}
    (h : line.req.acs = true ∨ openFrame x = openFrame y) : openFrame (x ++ [line]) = openFrame (y ++ [line]) := by
  rw [openFrame_append, openFrame_append]
  obtain h | h := h
  · rw [if_pos h, if_pos h]
  · rw [h]

theorem deviceStore_congr {x y : List TraceEntry} (h : openFrame x = openFrame y) (p : Profile) (req : Request)
    (m : List Host.Cell) : deviceStore p x req m = deviceStore p y req m := by
  simp only [deviceStore, deviceTarget, h]

section
variable {s₀ u₀ s u : State} {req : Request} {ans : TxAnswer}

/-! ## What the block reads -/

theorem Alike.request?_eq (h : Alike s₀ u₀ s u) : u.request? = s.request? := by
  unfold State.request?
  rw [← h.st, ← h.cfg]
  cases hs : s.st
  case wAddr | rAddr => rw [h.addrQ (by rw [hs]; decide)]
  case wData => rw [h.dataQ (by rw [hs]; rfl)]
  all_goals rfl

theorem Alike.answer?_eq (h : Alike s₀ u₀ s u) : u.answer? = s.answer? := by
  rw [State.answer?, State.answer?, h.txIn, h.transport, h.draws]

/-- Inside a frame a read brings the same bytes. -/
theorem Alike.received_eq (h : Alike s₀ u₀ s u) (hs : s.st ≠ .idle) (hcs : s.cs = .asserted) :
    u.received = s.received := by
  have hframe : frameByte u.cfg.profile u.trace u.mem = frameByte s.cfg.profile s.trace s.mem := by
    funext k
    rw [frameByte, frameByte, h.cfg, h.mem, h.openFrame hcs]
  funext ans n
  simp only [State.received, State.lineBits, State.deviceByte?, State.readVisible, State.profileMatches, hframe, h.cfg,
    h.transport, h.deviceProfile, h.draws, h.firstFail hs]

theorem Alike.replyTo_eq (h : Alike s₀ u₀ s u) (hs : s.st ≠ .idle) (hc : csCheck req s.cs = none) :
    replyTo req ans u = replyTo req ans s := by
  cases req with
  | write | delay => rfl
  | read n dcs =>
    have hcs : s.cs = .asserted := by
      cases hcs : s.cs with
      | asserted => rfl
      | deasserted => rw [hcs] at hc; cases hc
    rw [replyTo, replyTo, h.received_eq hs hcs]

theorem Alike.resultStatus_eq (h : Alike s₀ u₀ s u) (hs : s.st ≠ .idle) (hlast : s.lastStatus = u.lastStatus) :
    s.resultStatus = u.resultStatus := by
  rw [State.resultStatus, State.resultStatus, h.cfg, hlast, h.firstFail hs]

/-! ## What the block does -/

theorem Alike.raiseFault (h : Alike s₀ u₀ s u) (f : BlockFault) :
    Alike s₀ u₀ (raiseFault f s) (Machine.raiseFault f u) :=
  { h with fault := congrArg (addFault f) h.fault }

theorem Alike.advance (h : Alike s₀ u₀ s u) : Alike s₀ u₀ (advance s) (Machine.advance u) :=
  { h with
    st := congrArg Seq.next h.st
    addrQ := fun hs => h.addrQ (Seq.not_idle_of_next hs)
    firstFail := fun hs => h.firstFail (Seq.not_idle_of_next hs)
    dataQ := fun hs => h.dataQ (Seq.op?_of_next hs) }

theorem Alike.complete (h : Alike s₀ u₀ s u) (hs : s.st ≠ .idle) (hlast : s.lastStatus = u.lastStatus)
    (data : Option Word) : Alike s₀ u₀ (complete data s) (Machine.complete data u) :=
  { h.advance with
    responses := by
      rw [complete_responses, complete_responses, h.resultStatus_eq hs hlast]
      exact h.responses.append _ }

theorem Alike.takeWord (h : Alike s₀ u₀ s u) (hs : s.st ≠ .idle) (hlast : s.lastStatus = u.lastStatus)
    (rx : BytePair) (n : Nat) : Alike s₀ u₀ (takeWord rx n s) (Machine.takeWord rx n u) :=
  { h.complete hs hlast (some (wordAssemble rx)) with cfg := h.cfg }

theorem Alike.settleWrite (h : Alike s₀ u₀ s u) (hs : s.st = .wEwds) :
    Alike s₀ u₀ (settleWrite s) (Machine.settleWrite u) := by
  have hi : s.st ≠ .idle := by rw [hs]; decide
  have hvisible : s.writeVisible = u.writeVisible := by
    simp only [State.writeVisible, State.profileMatches, h.cfg, h.deviceProfile, h.writeCycle, h.firstFail hi]
  have hmem : (Machine.settleWrite s).mem = (Machine.settleWrite u).mem := by
    rw [settleWrite_mem, settleWrite_mem, hvisible, h.transport, h.mem, h.addrQ hi, h.dataQ (by rw [hs]; rfl)]
  rw [settleWrite_eq_with_own_mem s, settleWrite_eq_with_own_mem u]
  exact { h with mem := hmem }

theorem Alike.log (h : Alike s₀ u₀ s u) (line : TraceEntry) :
    Alike s₀ u₀ { s with trace := s.trace ++ [line] } { u with trace := u.trace ++ [line] } :=
  { h with
    openFrame := fun hcs => openFrame_append_congr (.inr (h.openFrame hcs))
    trace := h.trace.append _ }

theorem Alike.settleDelay (h : Alike s₀ u₀ s u) : Alike s₀ u₀ (settleDelay s) (Machine.settleDelay u) := by
  cases he : s.settleEnds with
  | false => rwa [settleDelay_of_not_settleEnds he, settleDelay_of_not_settleEnds (h.settleEnds ▸ he)]
  | true =>
    rw [settleDelay_of_settleEnds he, settleDelay_of_settleEnds (h.settleEnds ▸ he),
      congrArg SessionConfig.tSettle h.cfg]
    exact (h.log _).advance

theorem Alike.accept (h : Alike s₀ u₀ s u) (op : HostOp) (addr : BitVec 16) (data : Word) :
    Alike s₀ u₀ (accept op addr data s) (Machine.accept op addr data u) := by
  by_cases hacc : Accepts s addr
  · have hacc' : Accepts u addr := by rwa [Accepts, ← h.cfg]
    have hlatched : latched s addr = latched u addr := by rw [latched, latched, h.cfg]
    rw [accept_of_accepts hacc, accept_of_accepts hacc']
    exact { h with
      st := rfl
      addrQ := fun _ => congrArg (BitVec.ofNat 8) hlatched
      firstFail := fun _ => rfl
      dataQ := fun hop => by
        obtain rfl : op = .writeWord := HostOp.eq_writeWord_of_firstState hop
        rfl }
  · obtain ⟨hge, hp⟩ := not_accepts_iff.mp hacc
    rw [accept_of_refuse hge hp, accept_of_refuse (h.cfg ▸ hge) (h.cfg ▸ hp)]
    exact Alike.raiseFault (s := { s with opQ := op }) (u := { u with opQ := op }) { h with cfg := h.cfg } _

theorem Alike.issueAnswered (h : Alike s₀ u₀ s u) (hs : s.st ≠ .idle) (hcall : req.isCall = true)
    (hc : csCheck req s.cs = none) : Alike s₀ u₀ (issueAnswered req ans s) (Machine.issueAnswered req ans u) := by
  have hopen : Machine.openFrame (s.trace ++ [⟨req, replyTo req ans s⟩]) =
      Machine.openFrame (u.trace ++ [⟨req, replyTo req ans s⟩]) :=
    openFrame_append_congr ((acs_or_asserted hcall hc).imp_right h.openFrame)
  have hmem : (Machine.issueAnswered req ans s).mem = (Machine.issueAnswered req ans u).mem := by
    rw [issueAnswered_mem, issueAnswered_mem, h.replyTo_eq hs hc, deviceStore_congr hopen, h.cfg, h.transport, h.mem]
  exact { h with
    cs := congrArg (csAfter req) h.cs
    txIn := congrArg List.tail h.txIn
    draws := congrArg (· + 1) h.draws
    mem := hmem
    firstFail := fun hs => congrArg (recordFailure ans.status) (h.firstFail hs)
    openFrame := fun _ => by rw [issueAnswered_trace, issueAnswered_trace, h.replyTo_eq hs hc, hopen]
    trace := by
      rw [issueAnswered_trace, issueAnswered_trace, h.replyTo_eq hs hc]
      exact h.trace.append _ }

theorem asserted_of_rData (hs : s.st = .rData) (hreq : s.request? = some req) (hc : csCheck req s.cs = none) :
    s.cs = .asserted := by
  obtain rfl : reqRead = req := by simpa [State.request?, hs] using hreq
  exact (acs_or_asserted rfl hc).resolve_left Bool.false_ne_true

/-- The request of the sequencer state and the rest of its step. -/
theorem Alike.issue (h : Alike s₀ u₀ s u) (hreq : s.request? = some req) (hcall : req.isCall = true) :
    Alike s₀ u₀ (issue req s.finish s) (Machine.issue req u.finish u) := by
  have hs := not_idle_of_request? hreq
  rw [Machine.issue, Machine.issue, ← h.cs, h.answer?_eq]
  cases hc : csCheck req s.cs with
  | some v => exact h.raiseFault _
  | none =>
    cases s.answer? with
    | none => exact h
    | some ans =>
      have h' : Alike s₀ u₀ (Machine.issueAnswered req ans s) (Machine.issueAnswered req ans u) :=
        h.issueAnswered hs hcall hc
      by_cases hw : s.st = .wEwds
      · rw [finish_of_wEwds hw, finish_of_wEwds (h.st ▸ hw)]
        exact (h'.settleWrite hw).complete (by rwa [settleWrite_st]) (by simp) none
      by_cases hr : s.st = .rData
      · rw [finish_of_rData hr, finish_of_rData (h.st ▸ hr), h.received_eq hs (asserted_of_rData hr hreq hc)]
        exact h'.takeWord hs rfl _ _
      · rw [finish_of_not_last hw hr, finish_of_not_last (h.st ▸ hw) (h.st ▸ hr)]
        exact h'.advance

/-! ## Steps and runs -/

theorem Alike.step (h : Alike s₀ u₀ s u) : ∃ t v, step s = .next t ∧ Machine.step u = .next v ∧ Alike s₀ u₀ t v := by
  by_cases hf : s.fault = []
  · have hf' : u.fault = [] := h.fault ▸ hf
    by_cases hi : s.st = .idle
    · cases hc : s.cmds with
      | nil => exact ⟨s, u, step_await hf hi hc, step_await hf' (h.st ▸ hi) (h.cmds ▸ hc), h⟩
      | cons r rest =>
        exact ⟨_, _, step_present hf hi hc, step_present hf' (h.st ▸ hi) (h.cmds ▸ hc),
          Alike.accept (s := { s with cmds := rest }) (u := { u with cmds := rest }) { h with cmds := rfl } _ _ _⟩
    by_cases hw : s.st = .wSettle
    · exact ⟨_, _, step_wSettle hf hw, step_wSettle hf' (h.st ▸ hw), h.settleDelay⟩
    obtain ⟨req, hreq, hcall⟩ := State.exists_request hi hw
    exact ⟨_, _, step_call hf hreq hcall, step_call hf' (h.request?_eq.trans hreq) hcall, h.issue hreq hcall⟩
  · exact ⟨s, u, step_faulted ((faulted_iff s).mpr hf), step_faulted ((faulted_iff u).mpr (h.fault ▸ hf)), h⟩

theorem Alike.run (h : Alike s₀ u₀ s u) (n : Nat) {t v : State} (ht : Host.Core.run Sys2Proof.core n s = .next t)
    (hv : Host.Core.run Sys2Proof.core n u = .next v) : Alike s₀ u₀ t v := by
  induction n generalizing s u with
  | zero =>
    obtain rfl : s = t := Host.Outcome.next.inj ht
    obtain rfl : u = v := Host.Outcome.next.inj hv
    exact h
  | succ n ih =>
    obtain ⟨s', u', hs, hu, h'⟩ := h.step
    exact ih h' ((run_succ (M := Sys2Proof.core) hs n).symm.trans ht)
      ((run_succ (M := Sys2Proof.core) hu n).symm.trans hv)

end

/-- Settles O57: blocks at a boundary are alike, and stay so. -/
theorem transactionsForgetThePast : Obligations.TransactionsForgetThePast := by
  intro n s u t v ⟨hs, hu⟩ ⟨hfs, hfu⟩ ⟨hcs, hcu⟩ hcfg hcmds
    ⟨htx, htransport, hsettle, hmem, hcycle, hdevice, hdraws⟩ ht hv
  have hstart : Alike s u s u :=
    { cfg := hcfg, st := hs.trans hu.symm, cs := hcs.trans hcu.symm, fault := hfs.trans hfu.symm, cmds := hcmds,
      txIn := htx, transport := htransport, settleEnds := hsettle, mem := hmem, writeCycle := hcycle,
      deviceProfile := hdevice, draws := hdraws
      addrQ := fun h => absurd hs h
      firstFail := fun h => absurd hs h
      dataQ := fun h => by rw [hs] at h; cases h
      openFrame := fun h => by rw [hcs] at h; cases h
      responses := .refl _ _
      trace := .refl _ _ }
  have hend := hstart.run n ht hv
  exact ⟨hend.responses.drop_eq, hend.trace.drop_eq, hend.st, hend.fault⟩

end Sys2Proof.Machine
end
